-- ==== Sys2Proof/Word.lean ====
section
/-! DEFINITION. The plain types of numbers and bytes, and a fixed-size table built from a function. -/

namespace Sys2Proof

/-- One byte of a frame (R173, R192). -/
abbrev Byte := BitVec 8

/-- The 48-bit serial number of a unit (spec/00_scope.md, SERIAL). -/
abbrev Serial := BitVec 48

/-- The table of `n` places whose place `i` holds `f i`. -/
def tabulate {α : Type} (n : Nat) (f : Nat → α) : Vector α n :=
  ⟨((List.range n).map f).toArray, by simp⟩

/-- A division rounded up, where a rule says so (R83, R120, R127); R1 rounds every other one down. -/
def ceilDiv (a b : Nat) : Nat := (a + (b - 1)) / b

end Sys2Proof
end

