-- ==== Sys2Proof/Syntax.lean ====
section
/-! DEFINITION. The commands of the part: one constructor for each row of spec/opcode_table.json. -/

namespace Sys2Proof

/-- The commands. A supervisor request carries the payload bytes of its frame and stands for the rise of chip select
that ends the frame (R173). A row of the field link carries the slot or zone it is sent to, or the address and payload
of the frame a unit sent (R28). A timer row carries the number of the record, ticket, sensor line or zone whose timer
expires. A pin row carries the new level. -/
inductive Instr where
  /-- NOP, R180. -/
  | nop (payload : List Byte)
  /-- STATUS, R184. -/
  | status (payload : List Byte)
  /-- PEEK, R185. -/
  | peek (payload : List Byte)
  /-- SET MASK, R186. -/
  | setMask (payload : List Byte)
  /-- SET POLICY, R187. -/
  | setPolicy (payload : List Byte)
  /-- LOCK, R189. -/
  | lock (payload : List Byte)
  /-- RESTART, R190. -/
  | restart (payload : List Byte)
  /-- IDENTIFY, R191. -/
  | identify (payload : List Byte)
  /-- LOOKUP, R18. -/
  | lookup (payload : List Byte)
  /-- LIST, R19. -/
  | list (payload : List Byte)
  /-- BIND, R9. -/
  | bind (payload : List Byte)
  /-- AMEND, R20. -/
  | amend (payload : List Byte)
  /-- RETIRE, R23. -/
  | retire (payload : List Byte)
  /-- SET PROFILE, R55. -/
  | setProfile (payload : List Byte)
  /-- READ TICKETS, R97. -/
  | readTickets (payload : List Byte)
  /-- READ QUEUE, R98. -/
  | readQueue (payload : List Byte)
  /-- HOLD, R93. -/
  | hold (payload : List Byte)
  /-- SET ZONE, R115. -/
  | setZone (payload : List Byte)
  /-- SET SENSOR MAP, R105. -/
  | setSensorMap (payload : List Byte)
  /-- READ ZONE, R116. -/
  | readZone (payload : List Byte)
  /-- READ CLAIMS, R135. -/
  | readClaims (payload : List Byte)
  /-- READ PLANT, R155. -/
  | readPlant (payload : List Byte)
  /-- SET LIMITS, R153. -/
  | setLimits (payload : List Byte)
  /-- RECALL (the request), R162. -/
  | recall (payload : List Byte)
  /-- A frame that passes its check and whose code names no request, R175. -/
  | unknown (code : Byte) (payload : List Byte)
  /-- A frame, given by the bytes clocked in, that fails its check at the rise of chip select, R174. -/
  | checkError (bytes : List Byte)
  /-- A fall of chip select during an execution, R178. -/
  | notReady
  /-- The execution in progress completes, R177. -/
  | executionComplete
  /-- 2 ms without a clock edge while chip select is low, R179. -/
  | frameTimeout
  /-- Power is applied, R169. -/
  | powerOnReset
  /-- The RESET pin is asserted, R169. -/
  | resetPin
  /-- The reset being taken ends, R172. -/
  | resetEnd
  /-- The recall window expires, R167. -/
  | recallWindowExpiry
  /-- The arbiter begins a POLL to the slot, R31. -/
  | poll (slot : Nat)
  /-- The arbiter begins the JOIN WINDOW, R35. -/
  | joinWindow
  /-- The arbiter begins an ASSIGN for the slot, R40. -/
  | assign (slot : Nat)
  /-- The arbiter begins the REFUSE, R41. -/
  | refuse
  /-- The arbiter begins a RELEASE to the slot, R42. -/
  | release (slot : Nat)
  /-- The arbiter begins the RECALL broadcast, R43. -/
  | recallBroadcast
  /-- The arbiter begins a ZONE ENVELOPE of the zone, R44. -/
  | zoneEnvelope (zone : Nat)
  /-- The arbiter begins a COVER to the slot, R45. -/
  | cover (slot : Nat)
  /-- The last byte of a frame without reply has been sent, R29. -/
  | transactionEnd
  /-- The reply window closes with no reply begun, R30. -/
  | replyWindowClose
  /-- A received frame, given by its bytes, that is discarded, R28 and R30. -/
  | fieldFrameDiscarded (bytes : List Byte)
  /-- A REPORT is received from the address, R32. -/
  | report (addr : Byte) (payload : List Byte)
  /-- A JOIN is received from the address, R36. -/
  | join (addr : Byte) (payload : List Byte)
  /-- A RELEASED is received from the address, R16. -/
  | released (addr : Byte) (payload : List Byte)
  /-- The lease deadline of the record expires, R7. -/
  | leaseExpiry (slot : Nat)
  /-- The bind deadline of the record expires, R8. -/
  | bindTimeout (slot : Nat)
  /-- The release deadline of the record expires, R16. -/
  | releaseDeadlineExpiry (slot : Nat)
  /-- The affirm-due point of the slot is reached, R47 and R48. -/
  | affirmDue (slot : Nat)
  /-- The affirm deadline of the slot expires, R47. -/
  | affirmDeadlineExpiry (slot : Nat)
  /-- The expiry time of the ticket is reached, R86. -/
  | ticketExpiry (ticket : Nat)
  /-- The HOLD input takes a level, R92. -/
  | holdInputChange (asserted : Bool)
  /-- A HOLD level has held for 20 ms, R92. -/
  | holdFilterExpiry
  /-- A sensor line takes a level, R102. -/
  | sensorLineChange (line : Nat) (shaded : Bool)
  /-- The debounce timer of the line expires, R102. -/
  | debounceExpiry (line : Nat)
  /-- The arrival timer of the zone expires, R111. -/
  | arrivalExpiry (zone : Nat)
  /-- The clear timer of the zone expires, R112. -/
  | clearTimeExpiry (zone : Nat)
  /-- The start timer of the zone expires, R123. -/
  | startTimerExpiry (zone : Nat)
  /-- The planned end of the zone's claim is reached, R129. -/
  | plannedEnd (zone : Nat)
  /-- The line step timer expires, R140. -/
  | lineStep
  /-- Chip select falls, R176. -/
  | chipSelectFall
  /-- A clock edge (rising or falling) comes while the data line in stands at the level given, R179. -/
  | clockEdge (rising : Bool) (dataIn : Bool)
  /-- Chip select rises, R173. -/
  | chipSelectRise
  deriving DecidableEq, Repr

end Sys2Proof
end

