-- ==== Sys2Proof/Decode.lean ====
section
/-! DEFINITION. The decoder the host asks for. No row of spec/opcode_table.json gives bits (its "fields" are empty and it
has no "fixed"), so no word spells a command. The requests' own bytes are read in Machine/Operands.lean and
Machine/Requests.lean, the field link's frames in Machine/Operands.lean. -/

namespace Sys2Proof

/-- No row of the table gives bits: no word spells a command. -/
def decodeTableWord (_nbits _w : Nat) : Option Instr := none

end Sys2Proof
end

