-- ==== Sys2Proof/Config.lean ====
section
/-! DEFINITION. The free values: what the spec leaves open and the part nevertheless has. They have no body, so nothing
can be proved about which value they take. -/

namespace Sys2Proof

/-- Which of the events that are due at one moment is taken first (log 4). DESIGN CHOICE: a free value, applied to the
counter `State.choices`. -/
opaque Config.eventChoice : Nat → Nat

/-- Whether the Envelope Stager reads a REPORT before the Raise Allocator does: R76 sets no order between them (log 5).
DESIGN CHOICE: a free value, applied to the counter `State.choices`. -/
opaque Config.stagerFirst : Nat → Bool

/-- Whether frames of different claims handed to the link at one moment have entry times of their own, in the order of
handing, or share theirs: R128 gives each frame of a claim its own entry time, R52 an order for equal ones, and neither
says which of the two holds between claims (log 13). DESIGN CHOICE: a free value, applied to the time. -/
opaque Config.claimsApart : Nat → Bool

/-- What a response carries whose payload, as its rule lists it, would be longer than the 250 bytes R176 allows
(log 8). DESIGN CHOICE: a free value, applied to the listed payload; at most 250 bytes of it are used. -/
opaque Config.overlongPayload : List Byte → List Byte

/-- The time in µs that a frame of so many bytes takes on the field link, whose rate the spec does not give (log 22).
DESIGN CHOICE: a free value, applied to the length of the frame. -/
opaque Config.frameTime : Nat → Nat

end Sys2Proof
end

