-- ==== Sys2Proof/Machine/Bytes.lean ====
section
/-! DEFINITION. Bytes, byte order and the two checks: R174 and R192 to R194. -/

namespace Sys2Proof.Machine

/-- The `k` bytes of a number, most significant byte first (R192, R193). -/
def beBytes : Nat → Nat → List Byte
  | 0, _ => []
  | k + 1, n => BitVec.ofNat 8 (n / 256 ^ k) :: beBytes k n

/-- A field of `k` bytes that stays at the largest value it holds (R191, R194). -/
def beSat (k n : Nat) : List Byte := beBytes k (min n (256 ^ k - 1))

/-- A signed number of `k` bytes in two's complement (R192). -/
def beInt (k : Nat) (i : Int) : List Byte := beBytes k (i % (256 ^ k : Nat)).toNat

/-- The number a run of bytes gives, most significant byte first. -/
def beNat (bytes : List Byte) : Nat := bytes.foldl (fun n b => n * 256 + b.toNat) 0

/-- The signed number a run of bytes gives in two's complement. -/
def beSigned (bytes : List Byte) : Int :=
  let n := beNat bytes
  let m := 256 ^ bytes.length
  if n * 2 < m then (n : Int) else (n : Int) - (m : Int)

/-- A number below 256 as one byte. -/
def byte (n : Nat) : Byte := BitVec.ofNat 8 n

/-- A yes-or-no value: 1 for yes, 0 for no (R193, R194). -/
def boolByte (b : Bool) : Byte := if b then 1 else 0

/-- The eight bits of a byte, most significant bit first (R173). -/
def byteBits (b : Byte) : List Bool := [7, 6, 5, 4, 3, 2, 1, 0].map b.getLsbD

/-- The bits of a run of bytes in the order they are clocked (R173). -/
def bytesBits (bytes : List Byte) : List Bool := bytes.flatMap byteBits

/-- A byte from bits, most significant first. -/
def bitsByte (bits : List Bool) : Byte :=
  bits.foldl (fun b x => (b <<< 1) ||| (if x then 1 else 0)) 0

/-- The whole bytes of a run of bits; bits after the last whole byte are discarded (R173). -/
def bitsBytes : List Bool → List Byte
  | a :: b :: c :: d :: e :: f :: g :: h :: rest => bitsByte [a, b, c, d, e, f, g, h] :: bitsBytes rest
  | _ => []

/-- One bit of the CRC-8 with polynomial x^8 + x^2 + x + 1 (R174). -/
def crc8Bit (crc : BitVec 8) (bit : Bool) : BitVec 8 :=
  if crc.msb != bit then (crc <<< 1) ^^^ 0x07#8 else crc <<< 1

/-- The CRC-8 of R174: initial value 0, most significant bit first, no reflection, no final inversion. -/
def crc8 (bytes : List Byte) : Byte := (bytesBits bytes).foldl crc8Bit 0

/-- One bit of the CRC-16 with polynomial 0x1021 (R28). -/
def crc16Bit (crc : BitVec 16) (bit : Bool) : BitVec 16 :=
  if crc.msb != bit then (crc <<< 1) ^^^ 0x1021#16 else crc <<< 1

/-- The CRC-16 of R28 and R192: initial value 0xFFFF, most significant bit first, no reflection, no inversion. -/
def crc16 (bytes : List Byte) : BitVec 16 := (bytesBits bytes).foldl crc16Bit 0xFFFF#16

/-- An ASCII text of IDENTIFY: eight bytes, padded at its end with 0x00 (R194). -/
def textField (chars : List Nat) : List Byte := (chars.map byte ++ List.replicate 8 0).take 8

/-- A response payload as it is sent: the listed one where it fits the 250 bytes of R176, otherwise a free value of at
most 250 bytes (log 8). -/
def boundedPayload (payload : List Byte) : List Byte :=
  if payload.length ≤ 250 then payload else (Config.overlongPayload payload).take 250

end Sys2Proof.Machine
end

