-- ==== Sys2Proof/Machine/State.lean ====
section
/-! DEFINITION. The state of the part, block by block, and the state right after a power-on reset. Times are in
microseconds (log 1); powers are in kW, rates in kW/min, settings in the units of spec/09 9.5. -/

namespace Sys2Proof.Machine

/-- No fault: the manual names no condition that stops the part. Closed and empty; nothing raises one (safe). -/
inductive Fault where
  deriving DecidableEq, Repr

/-- Why a command has no meaning. -/
inductive Refusal where
  /-- The command has no meaning in the model yet. Raised by an arm of `exec` only; none does. Safe. -/
  | notModelled (mnemonic : String)
  deriving DecidableEq, Repr

/-! ### Value sets (spec/10 10.4) -/

/-- The kind of a slot, a record or a unit (R2). -/
inductive Kind where
  | inverter
  | storage
  deriving DecidableEq, Repr

/-- The states of a record (spec/01 1.3). -/
inductive RecState where
  | vacant
  | addressed
  | bound
  | dormant
  | lapsed
  | recalled
  | retiring
  deriving DecidableEq, Repr

/-- The states of a zone (R107). -/
inductive ZoneState where
  | clear
  | forecast
  | shaded
  deriving DecidableEq, Repr

/-- The cover condition (R150). -/
inductive CoverCond where
  | full
  | caution
  | none
  deriving DecidableEq, Repr

/-- The breach episode with the time it began (R148). -/
inductive Episode where
  | none
  | fall (start : Nat)
  | rise (start : Nat)
  deriving DecidableEq, Repr

/-- The governor state; the recall window runs while RECALLING (R159). -/
inductive Governor where
  | recalling (window : Nat)
  | running
  deriving DecidableEq, Repr

/-- The three kinds of reset (R169). -/
inductive ResetKind where
  | powerOn
  | resetPin
  | restart
  deriving DecidableEq, Repr

/-- The twelve attention causes in the order of the table of spec/09 9.4. -/
inductive Cause where
  | unitWaiting
  | rosterFull
  | bindTimeout
  | unitLapsed
  | unitDemoted
  | healthAdvisory
  | retireDone
  | recallDone
  | lineBreach
  | coverCondition
  | holdChanged
  | frameError
  deriving DecidableEq, Repr

/-- The response statuses (spec/09 9.3). -/
inductive Status where
  | done
  | accepted
  | busy
  | wrongState
  | noSuch
  | stale
  | locked
  | range
  | unknown
  | checkError
  | notReady
  | frameTimeout
  deriving DecidableEq, Repr

/-! ### The unit record (spec/01 1.2) -/

/-- An envelope: a bank (false is bank 0, true is bank 1), a ceiling and a rate (spec/03 3.3). -/
structure Envelope where
  bank : Bool
  ceiling : Nat
  rate : Nat
  deriving DecidableEq, Repr

/-- What BIND gives an INVERTER record (R9). -/
structure Binding where
  zone : Nat
  profile : Nat
  exempt : Bool
  deriving DecidableEq, Repr

/-- The last report of a record, by the kind of the unit (R5). -/
inductive LastReport where
  | inverter (output available time : Nat)
  | storage (output : Int) (charge discharge chargeLimit time : Nat)
  deriving DecidableEq, Repr

/-- The affirm deadline of a slot and its affirm-due point, the latter present until it has been reached (R46 to R48). -/
structure Affirm where
  deadline : Nat
  due : Option Nat
  deriving DecidableEq, Repr

/-- The record of one slot. The fields of a VACANT record are cleared (R4). -/
structure UnitRecord where
  state : RecState
  kind : Kind
  serial : Serial
  rating : Nat
  binding : Option Binding
  demoted : Bool
  lapses : Nat
  slowRaises : Nat
  ackMismatches : Nat
  revision : BitVec 8
  lease : Option Nat
  bindDeadline : Option Nat
  releaseDeadline : Option Nat
  lastReport : Option LastReport
  active : Option Envelope
  staged : Option Envelope
  affirm : Option Affirm
  deriving DecidableEq, Repr

/-- A VACANT record: every field cleared (R4). -/
def UnitRecord.vacant : UnitRecord :=
  { state := .vacant, kind := .inverter, serial := 0, rating := 0, binding := none, demoted := false, lapses := 0,
    slowRaises := 0, ackMismatches := 0, revision := 0, lease := none, bindDeadline := none, releaseDeadline := none,
    lastReport := none, active := none, staged := none, affirm := none }

/-! ### Settings -/

/-- The settings of SET POLICY, in the order of their part codes (spec/10 10.3). -/
structure Policy where
  nr : Nat
  leaseInterval : Nat
  bindTimeout : Nat
  releaseTimeout : Nat
  lapsesThr : Nat
  slowThr : Nat
  ackThr : Nat
  ta : Nat
  raiseThr : Nat
  ticketSpan : Nat
  ticketGrace : Nat
  minClaim : Nat
  debounce : Nat
  startMargin : Nat
  early : Bool
  lineStep : Nat
  deadband : Nat
  caution : Nat
  reserve : Nat
  recallWindow : Nat
  clampGap : Nat
  clampMargin : Nat
  deriving DecidableEq, Repr

/-- The defaults of the settings (spec/09 9.5). -/
def Policy.default : Policy :=
  { nr := 2, leaseInterval := 3000, bindTimeout := 60, releaseTimeout := 2000, lapsesThr := 5, slowThr := 8,
    ackThr := 16, ta := 1000, raiseThr := 20, ticketSpan := 60, ticketGrace := 3, minClaim := 20, debounce := 500,
    startMargin := 5, early := true, lineStep := 200, deadband := 50, caution := 200, reserve := 50,
    recallWindow := 30, clampGap := 150, clampMargin := 50 }

/-- An entry of the profile table: up index and down index into the rate scale (R54). -/
structure Profile where
  up : Nat
  down : Nat
  deriving DecidableEq, Repr

/-- The default profile table (R54). -/
def defaultProfiles : Vector Profile 4 := #v[⟨8, 8⟩, ⟨5, 10⟩, ⟨10, 11⟩, ⟨0, 8⟩]

/-! ### The Field Link Controller (spec/02) -/

/-- A pending COVER: the share and the entry time (R45). -/
structure CoverTx where
  share : Int
  entry : Nat
  deriving DecidableEq, Repr

/-- What is pending for one slot: the reasons of its POLL with the times they arose, its ASSIGN, its RELEASE and its
COVER, with entry times (R50, R51). -/
structure SlotTx where
  routine : Option Nat
  push : Option Nat
  affirmDue : Option Nat
  assign : Option Nat
  release : Option Nat
  cover : Option CoverTx
  deriving DecidableEq, Repr

/-- Nothing pending for a slot. -/
def SlotTx.empty : SlotTx :=
  { routine := none, push := none, affirmDue := none, assign := none, release := none, cover := none }

/-- A ZONE ENVELOPE handed in and not yet sent: its zone, its slots and its entry time, `entry` with `order`, which
tells apart frames handed at one moment (R44, R128, log 13). -/
structure ZoneEnvTx where
  zone : Nat
  slots : List Nat
  entry : Nat
  order : Nat
  deriving DecidableEq, Repr

/-- The kinds of transaction: those with a reply window, and the others (R29). -/
inductive TxnKind where
  | poll (slot : Nat)
  | joinWindow
  | release (slot : Nat)
  | noReply
  deriving DecidableEq, Repr

/-- The transaction in progress: its kind, the time it began, the time its frame takes (log 22) and the bytes of its frame
(R28, R29). -/
structure Txn where
  kind : TxnKind
  start : Nat
  span : Nat
  frame : List Byte
  deriving DecidableEq, Repr

/-- The state of the Field Link Controller apart from the affirm deadlines, which stand in the records. -/
structure Link where
  sweep : Nat
  served : Vector Bool 64
  txn : Option Txn
  slotTx : Vector SlotTx 64
  refuse : Option (Serial × Nat)
  recallTx : Option Nat
  joinWindow : Option Nat
  zoneEnvs : List ZoneEnvTx
  deriving DecidableEq, Repr

/-- The Field Link Controller with nothing pending, in sweep 0 (R33). -/
def Link.empty : Link :=
  { sweep := 0, served := Vector.replicate 64 false, txn := none, slotTx := Vector.replicate 64 SlotTx.empty,
    refuse := none, recallTx := none, joinWindow := none, zoneEnvs := [] }

/-! ### The notices of the Shade Tracker (spec/05 5.4) -/

/-- A notice of the Shade Tracker: what happened to a zone (R113). A forecast that is cancelled is marked so (R110). -/
inductive Notice where
  | leftClear (zone arrival : Nat)
  | arrivalChanged (zone arrival : Nat)
  | enteredShaded (zone : Nat)
  | returnedClear (zone : Nat) (cancelled : Bool)
  deriving DecidableEq, Repr

/-! ### The Raise Allocator (spec/04) -/

/-- An entry of the raise queue (R73). -/
structure QueueEntry where
  slot : Nat
  wanted : Nat
  time : Nat
  deriving DecidableEq, Repr

/-- A live ticket (R78). `seq` numbers the grants, so that the newest can be told (R89, log 28). -/
structure Ticket where
  slot : Nat
  start : Nat
  target : Nat
  rate : Nat
  granted : Nat
  expiry : Nat
  seq : Nat
  deriving DecidableEq, Repr

/-- The state of the Raise Allocator, with the level of the HOLD pin. `notices` are the notices of the Shade Tracker given to
it and not yet taken, the first given first (R113, R114). -/
structure RaiseAlloc where
  queue : List QueueEntry
  tickets : Vector (Option Ticket) 16
  riseClaimed : Nat
  nextSeq : Nat
  holdLine : Bool
  holdTimer : Option Nat
  holdFiltered : Bool
  holdFlag : Bool
  effHold : Bool
  notices : List Notice
  deriving DecidableEq, Repr

/-- The Raise Allocator after a reset that ends with the HOLD line at `level` (R92, R93, R100). -/
def RaiseAlloc.cleared (level : Bool) : RaiseAlloc :=
  { queue := [], tickets := Vector.replicate 16 none, riseClaimed := 0, nextSeq := 0, holdLine := level,
    holdTimer := none, holdFiltered := level, holdFlag := false, effHold := level, notices := [] }

/-! ### The Shade Tracker (spec/05) -/

/-- A sensor line: its level, its filtered level (true is shaded), and its debounce timer with the candidate level and
the expiry time (R101, R102). -/
structure Sensor where
  line : Bool
  filtered : Bool
  timer : Option (Bool × Nat)
  deriving DecidableEq, Repr

/-- A source of a zone: a sensor that forecasts shade for it (R107). -/
structure Source where
  sensor : Nat
  arrival : Nat
  lead : Nat
  cleared : Bool
  deriving DecidableEq, Repr

/-- A zone record (R107). The sources stand in ascending sensor order. -/
structure Zone where
  state : ZoneState
  sources : List Source
  arrival : Option Nat
  clearTime : Option Nat
  floor : Nat
  deriving DecidableEq, Repr

/-- A zone after a reset: CLEAR, no source, a shade floor of 300 ‰ (R107). -/
def Zone.initial : Zone := { state := .clear, sources := [], arrival := none, clearTime := none, floor := 300 }

/-- An entry of the sensor map: a zone and a lead in seconds (R104). -/
structure MapEntry where
  zone : Nat
  lead : Nat
  deriving DecidableEq, Repr

/-- The state of the Shade Tracker, with the levels of the sensor pins. -/
structure Shade where
  sensors : Vector Sensor 16
  map : Vector (List MapEntry) 16
  zones : Vector Zone 16
  deriving DecidableEq, Repr

/-- The Shade Tracker with every line lit and its timer stopped, the map empty and every zone CLEAR (R118). -/
def Shade.initial : Shade :=
  { sensors := Vector.replicate 16 { line := false, filtered := false, timer := none },
    map := Vector.replicate 16 [], zones := Vector.replicate 16 Zone.initial }

/-! ### The Lowering Allocator (spec/06) -/

/-- An entry of a claim's unit list (R127). -/
structure ClaimUnit where
  slot : Nat
  start : Nat
  target : Nat
  rate : Nat
  freed : Bool
  deriving DecidableEq, Repr

/-- A granted lowering claim (R127). `seq` numbers the grants (R131, log 28). -/
structure Claim where
  rate : Nat
  granted : Nat
  units : List ClaimUnit
  plannedEnd : Nat
  seq : Nat
  deriving DecidableEq, Repr

/-- The lowering phase of a zone. The start timer stands in TIMING only, the claim in LOWERING only (R119). -/
inductive Phase where
  | idle
  | timing (start : Nat)
  | waiting
  | lowering (claim : Claim)
  | lowered
  | empty
  | deferred
  deriving DecidableEq, Repr

/-- The state of the Lowering Allocator. `notices` are the notices of the Shade Tracker given to it and not yet taken, the
first given first (R113, R114). -/
structure Lower where
  phases : Vector Phase 16
  waitList : List Nat
  fallClaimed : Nat
  nextSeq : Nat
  notices : List Notice
  deriving DecidableEq, Repr

/-- The Lowering Allocator after a reset (R136). -/
def Lower.initial : Lower :=
  { phases := Vector.replicate 16 Phase.idle, waitList := [], fallClaimed := 0, nextSeq := 0, notices := [] }

/-! ### The Line Controller (spec/07) -/

/-- The state of the Line Controller: the plant limits, the parts of S, the line, the step timer (absent during a
reset), the last step's c and c′, the last shares sent, the cover condition, the episode and the counters. -/
structure LineCtl where
  lup : Nat
  ldown : Nat
  parts : Vector (Option Nat) 64
  pl : Option Int
  timer : Option Nat
  cover : Int
  given : Int
  lastShare : Vector (Option Int) 64
  condition : CoverCond
  episode : Episode
  fallBreaches : Nat
  riseBreaches : Nat
  deriving DecidableEq, Repr

/-- The Line Controller after a reset, with the limits and the timer it then has (R152, R158). -/
def LineCtl.cleared (lup ldown : Nat) (timer : Option Nat) : LineCtl :=
  { lup := lup, ldown := ldown, parts := Vector.replicate 64 none, pl := none, timer := timer, cover := 0, given := 0,
    lastShare := Vector.replicate 64 none, condition := .none, episode := .none, fallBreaches := 0,
    riseBreaches := 0 }

/-! ### The Supervisor Port (spec/09) -/

/-- A response: its status and its payload; length and CRC-8 are worked when it is clocked out (R176). -/
structure Response where
  status : Status
  payload : List Byte
  deriving DecidableEq, Repr

/-- A frame being received: whether it may be executed (false for a NOT READY frame, R178), the bits in, the bytes
latched for clocking out, how many bits have been shifted out, and the time of the last edge (R173, R176, R179). -/
structure FrameRx where
  ready : Bool
  bitsIn : List Bool
  out : List Byte
  shifted : Nat
  lastEdge : Nat
  deriving DecidableEq, Repr

/-- The frame receiver (R173, R179, R181). -/
inductive Receiver where
  | idle
  | frame (f : FrameRx)
  | abandoned
  | waitHigh
  deriving DecidableEq, Repr

/-- An execution in progress: the response it makes pending, absent for NOP (R180), and when it began (R177). -/
structure Execution where
  response : Option Response
  start : Nat
  deriving DecidableEq, Repr

/-- The state of the Supervisor Port with its pins. Flag n of `causes` and `mask` is cause n (R186). -/
structure Port where
  csLow : Bool
  sck : Bool
  receiver : Receiver
  execution : Option Execution
  pending : Response
  causes : BitVec 12
  mask : BitVec 12
  attn : Bool
  lock : Bool
  deriving DecidableEq, Repr

/-! ### The whole part -/

/-- The state of the part. `pending` is the queue of commands; `now` and `choices` are the model's own (log 1, log 4). -/
structure State where
  pending : List Instr
  now : Nat
  choices : Nat
  inReset : Option ResetKind
  lastReset : ResetKind
  resetAt : Nat
  policy : Policy
  records : Vector UnitRecord 64
  governor : Governor
  profiles : Vector Profile 4
  link : Link
  raise : RaiseAlloc
  shade : Shade
  lower : Lower
  line : LineCtl
  port : Port
  deriving DecidableEq, Repr

/-- The payload of an IDENTIFY answer, its fields in the order R191 lists them, in the widths of R194. -/
def identifyPayload (kind lock nr governor seconds : Nat) : List Byte :=
  textField [0x4B, 0x47, 0x36, 0x34] ++ textField [0x4B, 0x61, 0x6C, 0x74, 0x72, 0x65, 0x6E] ++
  textField [0x57, 0x61, 0x7A, 0x6D, 0x65, 0x6C] ++
  [byte 1, byte 64, byte 16, byte 16, byte 4, byte 16, byte 12, byte 250, byte kind, byte lock, byte nr,
   byte governor] ++ beSat 4 seconds

/-- The state right after a power-on reset (R169 to R172, R181): every block at its reset values, the recall of
start-up running for 30 s, the RECALL broadcast pending, and the JOIN WINDOW of the first sweep, which has no due slot
(R33, R35), pending behind it. The input pins stand at the levels log 12 names. -/
def State.reset : State :=
  { pending := [], now := 0, choices := 0, inReset := none, lastReset := .powerOn, resetAt := 0,
    policy := Policy.default, records := Vector.replicate 64 UnitRecord.vacant,
    governor := .recalling 30000000, profiles := defaultProfiles,
    link := { Link.empty with recallTx := some 0, joinWindow := some 0 },
    raise := RaiseAlloc.cleared false, shade := Shade.initial, lower := Lower.initial,
    line := LineCtl.cleared 2000 2000 (some 200000),
    port := { csLow := false, sck := false, receiver := .idle, execution := none,
              pending := { status := .done, payload := identifyPayload 0 0 2 0 0 },
              causes := 0, mask := 0xFFF#12, attn := false, lock := false } }

end Sys2Proof.Machine
end

