-- ==== Sys2Proof/Machine/Flags.lean ====
section
/-! DEFINITION. The flags of the part: the attention causes, their mask and the ATTN line (R182, R183, R186). -/

namespace Sys2Proof.Machine

/-- The number of a cause in the cause table of spec/09 9.4 (R186). -/
def Cause.index : Cause → Nat
  | .unitWaiting => 0
  | .rosterFull => 1
  | .bindTimeout => 2
  | .unitLapsed => 3
  | .unitDemoted => 4
  | .healthAdvisory => 5
  | .retireDone => 6
  | .recallDone => 7
  | .lineBreach => 8
  | .coverCondition => 9
  | .holdChanged => 10
  | .frameError => 11

/-- The flag of a cause in the cause set and the mask. -/
def Cause.flag (c : Cause) : BitVec 12 := 1#12 <<< c.index

/-- ATTN is high while at least one cause is both set and enabled (R183). -/
def attnLevel (causes mask : BitVec 12) : Bool := causes &&& mask != 0

/-- The cause set and the mask with ATTN worked afresh (R183). -/
def Port.withFlags (p : Port) (causes mask : BitVec 12) : Port :=
  { p with causes := causes, mask := mask, attn := attnLevel causes mask }

/-- A block raises a cause: its flag is set and ATTN is worked afresh (R182, R183). -/
def State.raiseCause (c : Cause) (s : State) : State :=
  { s with port := s.port.withFlags (s.port.causes ||| c.flag) s.port.mask }

/-- A cause set or a mask as it stands in a payload: two bytes, bits above 11 being 0 (R186). -/
def flagBytes (flags : BitVec 12) : List Byte := beBytes 2 flags.toNat

end Sys2Proof.Machine
end

