-- ==== Sys2Proof/Machine/Ops.lean ====
section
/-! DEFINITION. The shared operations over the state: places of the tables, time, rates, ceilings, envelopes, views that
are worked and not stored, and the requests a block makes of the link. -/

namespace Sys2Proof.Machine

/-- The content of a place of a table; outside the table, the value given. -/
def look {α : Type} {n : Nat} (v : Vector α n) (i : Nat) (d : α) : α := v[i]?.getD d

/-- A table with the content of one place replaced; outside the table nothing changes. -/
def place {α : Type} {n : Nat} (v : Vector α n) (i : Nat) (x : α) : Vector α n := v.setIfInBounds i x

/-! ### Time (log 1) -/

/-- A time in ms, in µs. -/
def ms (n : Nat) : Nat := n * 1000

/-- A time in seconds, in µs. -/
def sec (n : Nat) : Nat := n * 1000000

/-- The time remaining to a deadline in whole ms, 0 when it is absent or has passed (R1, R18). -/
def msLeft (now : Nat) : Option Nat → Nat
  | none => 0
  | some d => (d - now) / 1000

/-- The time since a moment in whole ms. -/
def msSince (now t : Nat) : Nat := (now - t) / 1000

/-- A deadline is reached: time is no earlier than it (R1, log 2). -/
def State.reach (d : Nat) (s : State) : State := { s with now := max s.now d }

/-- Whole seconds since the end of the last reset (R191). -/
def State.secondsSinceReset (s : State) : Nat := (s.now - s.resetAt) / 1000000

/-! ### Places of the tables -/

/-- The record of a slot. -/
def State.record (s : State) (n : Nat) : UnitRecord := look s.records n .vacant

/-- The record of a slot replaced. -/
def State.setRecord (n : Nat) (r : UnitRecord) (s : State) : State := { s with records := place s.records n r }

/-- What is pending for a slot. -/
def State.tx (s : State) (n : Nat) : SlotTx := look s.link.slotTx n .empty

/-- What is pending for a slot replaced. -/
def State.setTx (n : Nat) (t : SlotTx) (s : State) : State :=
  { s with link := { s.link with slotTx := place s.link.slotTx n t } }

/-- The record of a zone. -/
def State.zone (s : State) (z : Nat) : Zone := look s.shade.zones z .initial

/-- The record of a zone replaced. -/
def State.setZone (z : Nat) (x : Zone) (s : State) : State :=
  { s with shade := { s.shade with zones := place s.shade.zones z x } }

/-- A sensor line. -/
def State.sensor (s : State) (i : Nat) : Sensor :=
  look s.shade.sensors i { line := false, filtered := false, timer := none }

/-- A sensor line replaced. -/
def State.setSensor (i : Nat) (x : Sensor) (s : State) : State :=
  { s with shade := { s.shade with sensors := place s.shade.sensors i x } }

/-- The lowering phase of a zone. -/
def State.phase (s : State) (z : Nat) : Phase := look s.lower.phases z .idle

/-- The lowering phase of a zone replaced. -/
def State.setPhase (z : Nat) (p : Phase) (s : State) : State :=
  { s with lower := { s.lower with phases := place s.lower.phases z p } }

/-- A place of the ticket table. -/
def State.ticket (s : State) (k : Nat) : Option Ticket := look s.raise.tickets k none

/-- A place of the ticket table replaced. -/
def State.setTicket (k : Nat) (t : Option Ticket) (s : State) : State :=
  { s with raise := { s.raise with tickets := place s.raise.tickets k t } }

/-- The part of S counted for a slot (R138). -/
def State.part (s : State) (n : Nat) : Option Nat := look s.line.parts n none

/-- The part of S counted for a slot replaced. -/
def State.setPart (n : Nat) (p : Option Nat) (s : State) : State :=
  { s with line := { s.line with parts := place s.line.parts n p } }

/-- The last share sent to a slot (R146). -/
def State.lastShare (s : State) (n : Nat) : Option Int := look s.line.lastShare n none

/-- The last share sent to a slot replaced. -/
def State.setLastShare (n : Nat) (x : Option Int) (s : State) : State :=
  { s with line := { s.line with lastShare := place s.line.lastShare n x } }

/-- An entry of the profile table. -/
def State.profile (s : State) (p : Nat) : Profile := look s.profiles p ⟨0, 0⟩

/-- The notices that wait for the Raise Allocator and for the Lowering Allocator replaced (R113). -/
def State.setNotices (raise lower : List Notice) (s : State) : State :=
  { s with raise := { s.raise with notices := raise }, lower := { s.lower with notices := lower } }

/-- The slots of the part, ascending. -/
def allSlots : List Nat := List.range 64

/-- The numbers of zones, lines and tickets, ascending. -/
def allSixteen : List Nat := List.range 16

/-! ### Slots, rates and ceilings -/

/-- The kind of a slot under a reserved slot count (R2). -/
def slotKind (nr n : Nat) : Kind := if 64 - nr ≤ n then .storage else .inverter

/-- The fixed rate scale: ‰ of rating per minute by index (spec/03 3.1). -/
def rateScale : Nat → Nat
  | 0 => 0 | 1 => 10 | 2 => 20 | 3 => 30 | 4 => 40 | 5 => 50 | 6 => 60 | 7 => 80
  | 8 => 100 | 9 => 120 | 10 => 150 | 11 => 200 | 12 => 250 | 13 => 300 | 14 => 500 | 15 => 1000
  | _ => 0

/-- A per-mille of a rating, rounded down (R1). -/
def permille (rating x : Nat) : Nat := rating * x / 1000

/-- The up-rate of a record, worked at its use (R53); a record without a profile has none. -/
def State.upRate (s : State) (r : UnitRecord) : Nat :=
  match r.binding with
  | none => 0
  | some b => permille r.rating (rateScale (s.profile b.profile).up)

/-- The down-rate of a record, worked at its use (R53). -/
def State.downRate (s : State) (r : UnitRecord) : Nat :=
  match r.binding with
  | none => 0
  | some b => permille r.rating (rateScale (s.profile b.profile).down)

/-- The descent rate: the down-rate, or the rating per minute where the down-rate is 0 (R14, R53). -/
def State.descentRate (s : State) (r : UnitRecord) : Nat :=
  if s.downRate r = 0 then r.rating else s.downRate r

/-- The effective ceiling of a record (R58). -/
def UnitRecord.effCeiling (r : UnitRecord) : Option Nat :=
  match r.active, r.staged with
  | some a, some e => some (max a.ceiling e.ceiling)
  | none, some e => some e.ceiling
  | some a, none => some a.ceiling
  | none, none => none

/-- The output of the last report of an inverter, 0 kW with none (R9, R87, R138). -/
def UnitRecord.lastOutput (r : UnitRecord) : Nat :=
  match r.lastReport with
  | some (.inverter o _ _) => o
  | _ => 0

/-- The record is an INVERTER record in BOUND. -/
def UnitRecord.boundInverter (r : UnitRecord) : Bool := r.state = .bound ∧ r.kind = .inverter

/-- The record is a STORAGE record in BOUND: usable storage (R141). -/
def UnitRecord.usable (r : UnitRecord) : Bool := r.state = .bound ∧ r.kind = .storage

/-- The record is hold-exempt; one with no hold-exempt flag is not (R9, R94). -/
def UnitRecord.exempt (r : UnitRecord) : Bool :=
  match r.binding with
  | some b => b.exempt
  | none => false

/-- The zone of a record is the zone given. -/
def UnitRecord.inZone (r : UnitRecord) (z : Nat) : Bool :=
  match r.binding with
  | some b => b.zone = z
  | none => false

/-- The record's zone is CLEAR as the Shade Tracker holds it (R74, R81). -/
def State.zoneClear (s : State) (r : UnitRecord) : Bool :=
  match r.binding with
  | some b => (s.zone b.zone).state = .clear
  | none => false

/-! ### Views that are worked and not stored -/

/-- The number of the live ticket of a slot: the ticket field of its record (R78). -/
def State.ticketOf (s : State) (n : Nat) : Option Nat :=
  allSixteen.find? fun k => match s.ticket k with | some t => t.slot = n | none => false

/-- The queued flag of a record: yes while it has an entry (R73). -/
def State.queued (s : State) (n : Nat) : Bool := s.raise.queue.any fun e => e.slot = n

/-- The array sum S: the sum of the parts (R138). -/
def State.arraySum (s : State) : Nat := (allSlots.map fun n => (s.part n).getD 0).sum

/-- The governor is RUNNING (R159). -/
def State.isRunning (s : State) : Bool := s.governor = .running

/-- The numbers of the slots whose records pass a test, ascending. -/
def State.slotsWhere (s : State) (p : UnitRecord → Bool) : List Nat := allSlots.filter fun n => p (s.record n)

/-- The usable converters in ascending slot order (R141). -/
def State.usableSlots (s : State) : List Nat := s.slotsWhere (·.usable)

/-! ### Requests to the Field Link Controller -/

/-- A reason for a POLL to a slot that already has one of its kind keeps the time it arose (R50, R51). -/
def State.requestPush (n : Nat) (s : State) : State :=
  let t := s.tx n
  s.setTx n { t with push := t.push <|> some s.now }

/-- The push reason of a slot lapses with its staged envelope, at the moment the envelope is acknowledged (R50, R61, R63). -/
def State.lapsePush (n : Nat) (s : State) : State := s.setTx n { s.tx n with push := none }

/-- The push and affirm-due reasons of a slot lapse with its staged envelope and its affirm deadline (R6, R47, R50). -/
def State.lapseReasons (n : Nat) (s : State) : State := s.setTx n { s.tx n with push := none, affirmDue := none }

/-- An affirm-due reason for a POLL to a slot (R47). -/
def State.requestAffirmPoll (n : Nat) (s : State) : State :=
  let t := s.tx n
  s.setTx n { t with affirmDue := t.affirmDue <|> some s.now }

/-- An ASSIGN is queued for a slot; one already pending stands (R40, R50). -/
def State.queueAssign (n : Nat) (s : State) : State :=
  let t := s.tx n
  s.setTx n { t with assign := t.assign <|> some s.now }

/-- A cover order: it replaces the share of a pending COVER, which keeps its entry time (R45). -/
def State.orderCover (n : Nat) (share : Int) (s : State) : State :=
  let t := s.tx n
  let entry := match t.cover with | some c => c.entry | none => s.now
  s.setTx n { t with cover := some { share := share, entry := entry } }

/-- An affirm-due COVER is queued unless a COVER is pending: the last share sent to a BOUND record, 0 kW with none, and
0 kW to a LAPSED record (R48). -/
def State.queueAffirmCover (n : Nat) (s : State) : State :=
  match (s.tx n).cover with
  | some _ => s
  | none =>
    let share := if (s.record n).state = .bound then (s.lastShare n).getD 0 else 0
    s.orderCover n share

/-- Every transmission pending for a slot is dropped (R4, R42, R43, R50). -/
def State.dropTx (n : Nat) (s : State) : State := s.setTx n .empty

/-- The affirm deadline worked from the present Ta: the time plus Ta, and its affirm-due point, a quarter of Ta, in
whole ms, before it (R46, R48, log 19). -/
def State.newAffirm (s : State) : Affirm :=
  { deadline := s.now + ms s.policy.ta, due := some (s.now + ms (s.policy.ta - s.policy.ta / 4)) }

/-- The affirm deadline of a slot is set (R46, R48). -/
def State.renewAffirm (n : Nat) (s : State) : State :=
  s.setRecord n { s.record n with affirm := some s.newAffirm }

/-- The place of a ZONE ENVELOPE of a zone handed in now among the entry times of this moment: behind every pending one of
its zone handed in at it, and behind those of the other zones too where a free value has it so (R128, log 13). `apart` is
that value. -/
def State.orderOf (apart : Bool) (z : Nat) (s : State) : Nat :=
  ((s.link.zoneEnvs.filter fun e => e.entry = s.now && (e.zone = z || apart)).map (·.order + 1)).foldl max 0

/-- The ZONE ENVELOPE frames of a claim are handed in one after another, each with its own entry time, `entry` with `order`
(R128). -/
def State.handFrames (apart : Bool) (z : Nat) : List (List Nat) → State → State
  | [], s => s
  | slots :: rest, s =>
    let frame : ZoneEnvTx := { zone := z, slots := slots, entry := s.now, order := s.orderOf apart z }
    State.handFrames apart z rest { s with link := { s.link with zoneEnvs := s.link.zoneEnvs ++ [frame] } }

/-- The ZONE ENVELOPE frames of a claim are handed to the link (R128, log 13). -/
def State.handZoneEnvs (z : Nat) (slots : List (List Nat)) (s : State) : State :=
  s.handFrames (Config.claimsApart s.now) z slots

/-- A list cut into runs of at most 16, in order (R128). -/
def chunk16 : Nat → List Nat → List (List Nat)
  | 0, _ => []
  | k + 1, l => if l = [] then [] else l.take 16 :: chunk16 k (l.drop 16)

/-! ### The sweep (R33 to R35, R50) -/

/-- The slot is due in the current sweep (R33). -/
def State.due (s : State) (n : Nat) : Bool :=
  match (s.record n).state with
  | .addressed | .bound | .lapsed => true
  | .dormant => s.link.sweep = 0
  | .vacant | .recalled | .retiring => false

/-- The sweep position: the lowest-numbered due slot that is not served (R34). -/
def State.sweepPosition (s : State) : Option Nat :=
  allSlots.find? fun n => s.due n && !look s.link.served n false

/-- The reasons of a slot's POLL that still hold (R50): none for a VACANT, RETIRING or RECALLED record; a push while an
envelope is staged; an affirm-due mark while the affirm deadline is held; the routine reason at the sweep position,
which arises now if it was not there. -/
def State.settleSlot (s : State) (position : Option Nat) (n : Nat) : SlotTx :=
  let t := s.tx n
  let r := s.record n
  let polled : Bool := !(r.state = .vacant || r.state = .retiring || r.state = .recalled)
  { t with
    routine := if polled && position = some n then t.routine <|> some s.now else none
    push := if polled && r.staged.isSome then t.push else none
    affirmDue := if polled && r.affirm.isSome then t.affirmDue else none }

/-- The JOIN WINDOW is pending while no due slot is unserved, once for each sweep; it is withdrawn when one appears
(R35). -/
def State.settleJoinWindow (s : State) (position : Option Nat) : Option Nat :=
  match position with
  | some _ => none
  | none =>
    match s.link.txn with
    | some { kind := .joinWindow, .. } => none
    | _ => s.link.joinWindow <|> some s.now

/-- The pending transmissions after an event: the routine POLL of R34, the JOIN WINDOW of R35, and the reasons that
lapse (R47, R50). Nothing but the link changes. -/
def State.settle (s : State) : State :=
  let position := s.sweepPosition
  { s with link := { s.link with
      slotTx := tabulate 64 (s.settleSlot position)
      joinWindow := s.settleJoinWindow position } }

/-! ### Ending a step -/

/-- The outcome of a command whose event can happen only outside a reset, and only where `f` answers a state: elsewhere
nothing changes (R169, log 6). -/
def State.event (s : State) (f : State → Option State) : Host.Outcome State Fault Refusal :=
  match s.inReset with
  | some _ => .next s
  | none =>
    match f s with
    | none => .next s
    | some t => .next t.settle

end Sys2Proof.Machine
end

