-- ==== Sys2Proof/Machine/Stager.lean ====
section
/-! DEFINITION. Stage claims: how the Envelope Stager takes and writes them (R59 to R61). -/

namespace Sys2Proof.Machine

/-- Who sends a stage claim; a lowering stage claim of the Lowering Allocator is told apart from its cut claims
(spec/03 3.4). -/
inductive ClaimFrom where
  | roster
  | raise
  | lowering
  | loweringCut
  | stager
  deriving DecidableEq, Repr

/-- A claim is taken for an INVERTER record in BOUND, or in LAPSED where it comes from the Unit Roster (R59). -/
def claimTaken (source : ClaimFrom) (r : UnitRecord) : Bool :=
  r.kind = .inverter && (r.state = .bound || (r.state = .lapsed && source = .roster))

/-- The staged envelope after a claim of a ceiling and a rate already inside the envelope ranges (R60). -/
def writtenEnvelope (r : UnitRecord) (ceiling rate : Nat) : Envelope :=
  match r.staged, r.active with
  | some e, _ => { e with ceiling := ceiling, rate := rate }
  | none, some a => { bank := !a.bank, ceiling := ceiling, rate := rate }
  | none, none => { bank := false, ceiling := ceiling, rate := rate }

/-- The claim changes no state: it equals the staged envelope in ceiling and rate, or it is a lowering stage claim whose
ceiling is above the staged one (R60). -/
def claimIdle (source : ClaimFrom) (r : UnitRecord) (ceiling rate : Nat) : Bool :=
  match r.staged with
  | none => false
  | some e => (e.ceiling = ceiling && e.rate = rate) || (source = .lowering && e.ceiling < ceiling)

/-- The Envelope Stager takes a stage claim (R59 to R61): the ceiling is limited to the rating and the rate is at least
1 kW/min; a claim that is written asks for a push POLL unless it is a lowering stage claim. -/
def State.stageClaim (source : ClaimFrom) (n ceiling rate : Nat) (s : State) : State :=
  let r := s.record n
  let c := min ceiling r.rating
  let v := max rate 1
  if claimTaken source r = false || claimIdle source r c v then s
  else
    let written := s.setRecord n { r with staged := some (writtenEnvelope r c v) }
    if source = .lowering then written else written.requestPush n

end Sys2Proof.Machine
end

