-- ==== Sys2Proof/Machine/Lowering.lean ====
section
/-! DEFINITION. The Lowering Allocator: plans, requests, claim evaluation, the ends of a claim (R119 to R137). -/

namespace Sys2Proof.Machine

/-! ### The lowering plan (R120) -/

/-- A member of a plan: its slot, effective ceiling, floor, target and down-rate. -/
structure Member where
  slot : Nat
  ceiling : Nat
  floor : Nat
  target : Nat
  down : Nat
  deriving DecidableEq, Repr

/-- The member a slot makes in the plan of a zone, where it is one (R120). -/
def State.memberOf (s : State) (z n : Nat) : Option Member :=
  let r := s.record n
  let floor := permille r.rating (s.zone z).floor
  let ceiling := r.effCeiling.getD 0
  if r.boundInverter && r.inZone z && decide (0 < s.downRate r) && decide (floor < ceiling) then
    let target := match r.staged with
      | some e => min e.ceiling floor
      | none => floor
    some { slot := n, ceiling := ceiling, floor := floor, target := target, down := s.downRate r }
  else none

/-- The members of a zone's plan, in ascending slot order (R120). -/
def State.planMembers (s : State) (z : Nat) : List Member := allSlots.filterMap (s.memberOf z)

/-- Σdown (R120). -/
def sigmaDown (members : List Member) : Nat := (members.map (·.down)).sum

/-- The amount of a plan (R120). -/
def planAmount (members : List Member) : Nat := (members.map fun m => m.ceiling - m.floor).sum

/-- The estimated duration of a plan in seconds (R120). -/
def State.planDuration (s : State) (members : List Member) : Nat :=
  if members = [] then 0 else ceilDiv (planAmount members * 60) (min (sigmaDown members) s.line.ldown)

/-! ### Requests and the wait list (R121 to R125) -/

/-- The arrival time of a zone as it stands. -/
def State.arrivalOf (s : State) (z : Nat) : Nat := (s.zone z).arrival.getD 0

/-- Zone `a` stands before zone `b` in the wait list: by arrival time, then by number (R125). A zone that has no arrival
time, since the Tracker has taken it to CLEAR and its notice still waits, stands behind those that have one: DESIGN
CHOICE, R125 gives it no place (log 33). -/
def State.waitsBefore (s : State) (a b : Nat) : Bool :=
  match (s.zone a).arrival, (s.zone b).arrival with
  | some x, some y => decide (x < y) || (x = y && decide (a < b))
  | some _, none => true
  | none, some _ => false
  | none, none => decide (a < b)

/-- A zone takes its place in a wait list (R125). -/
def State.insertWait (s : State) (z : Nat) : List Nat → List Nat
  | [] => [z]
  | y :: rest => if s.waitsBefore z y then z :: y :: rest else y :: s.insertWait z rest

/-- A zone leaves the wait list. -/
def State.leaveWait (z : Nat) (s : State) : State :=
  { s with lower := { s.lower with waitList := s.lower.waitList.filter fun y => y ≠ z } }

/-- A wait list in the order of the arrival times as they stand (R125). -/
def State.sortWait (s : State) (zones : List Nat) : List Nat := zones.foldr s.insertWait []

/-- A zone takes its place in the wait list, at most once; the list is then in the order of the arrival times as they
stand (R122, R125, log 14). -/
def State.enterWait (z : Nat) (s : State) : State :=
  let s₁ := s.leaveWait z
  { s₁ with lower := { s₁.lower with waitList := s₁.sortWait (z :: s₁.lower.waitList) } }

/-- A zone requests a claim: WAITING and its place in the list, or DEFERRED while RECALLING (R123). The Allocator goes by
the notices it has taken: a zone that the Tracker has taken back to CLEAR requests until that notice is taken (R130, log
33). Claim evaluation is run by the caller. -/
def State.requestClaim (z : Nat) (s : State) : State :=
  if s.isRunning then (s.setPhase z .waiting).enterWait z else s.setPhase z .deferred

/-! ### Claim evaluation and the claim (R126 to R128) -/

/-- The claim rate of a plan, where a claim can be granted (R126). -/
def State.claimRate (s : State) (members : List Member) : Option Nat :=
  let sigma := sigmaDown members
  let rate := min sigma (s.line.ldown - s.lower.fallClaimed)
  if s.policy.minClaim ≤ rate ∨ rate = sigma then some rate else none

/-- The entry of a member in the unit list of a claim (R127). -/
def claimUnit (sigma rate : Nat) (m : Member) : ClaimUnit :=
  { slot := m.slot, start := m.ceiling, target := m.target, rate := max 1 (m.down * rate / sigma), freed := false }

/-- The descent time of an entry in seconds (R127). -/
def ClaimUnit.descent (u : ClaimUnit) : Nat := ceilDiv ((u.start - u.target) * 60) u.rate

/-- The claim of a grant (R127). -/
def State.newClaim (s : State) (members : List Member) (rate : Nat) : Claim :=
  let units := members.map (claimUnit (sigmaDown members) rate)
  { rate := rate, granted := s.now, units := units,
    plannedEnd := s.now + sec ((units.map (·.descent)).foldl max 0), seq := s.lower.nextSeq }

/-- A claim is granted to a zone (R127, R128): fall claimed rises, the zone enters LOWERING and leaves the list, the
lowering stage claims are sent and the ZONE ENVELOPE frames handed to the link. -/
def State.grantClaim (z : Nat) (members : List Member) (rate : Nat) (s : State) : State :=
  let claim := s.newClaim members rate
  let s₁ := (s.setPhase z (.lowering claim)).leaveWait z
  let s₂ : State := { s₁ with lower := { s₁.lower with
    fallClaimed := s₁.lower.fallClaimed + rate, nextSeq := s₁.lower.nextSeq + 1 } }
  let s₃ := claim.units.foldl (fun t u => t.stageClaim .lowering u.slot u.target u.rate) s₂
  s₃.handZoneEnvs z (chunk16 claim.units.length (claim.units.map (·.slot)))

/-- Heads of the wait list are taken one after another until one cannot be granted (R126). -/
def State.claimLoop : Nat → State → State
  | 0, s => s
  | k + 1, s =>
    match s.lower.waitList with
    | [] => s
    | z :: _ =>
      let members := s.planMembers z
      if members = [] then State.claimLoop k ((s.setPhase z .empty).leaveWait z)
      else
        match s.claimRate members with
        | some rate => State.claimLoop k (s.grantClaim z members rate)
        | none => s

/-- Claim evaluation: one operation, which grants nothing while RECALLING (R126). -/
def State.claimEvaluation (s : State) : State :=
  if s.isRunning then State.claimLoop s.lower.waitList.length s else s

/-- The zones in TIMING, ascending (R119). -/
def State.timingZones (s : State) : List Nat :=
  allSixteen.filter fun z => match s.phase z with | .timing _ => true | _ => false

/-- Every zone in TIMING requests at once, with one evaluation at the end; with no zone in TIMING nothing enters the wait
list and none runs (R123, R126). -/
def State.timingZonesRequest (s : State) : State :=
  match s.timingZones with
  | [] => s
  | zones => (zones.foldl (fun t z => t.requestClaim z) s).claimEvaluation

/-! ### The notices of the Shade Tracker (R121, R122, R124, R130) -/

/-- The start time worked from an arrival has already passed (R121, log 18). -/
def State.startPassed (s : State) (z arrival : Nat) : Bool :=
  decide (arrival < s.now + sec (s.planDuration (s.planMembers z)) + sec s.policy.startMargin)

/-- The start time worked from an arrival (R121). -/
def State.startTime (s : State) (z arrival : Nat) : Nat :=
  arrival - sec (s.planDuration (s.planMembers z)) - sec s.policy.startMargin

/-- A zone that works its start time requests at once: the start time has passed, or early lowering calls for it (R121). -/
def State.requestsAtOnce (s : State) (z arrival : Nat) : Bool :=
  s.startPassed z arrival || (s.line.condition ≠ .full && s.policy.early)

/-- A zone enters TIMING and its start timer runs (R121). -/
def State.enterTiming (z arrival : Nat) (s : State) : State := s.setPhase z (.timing (s.startTime z arrival))

/-- Notice that a zone has entered FORECAST (R121). Claim evaluation runs where the zone enters the wait list; one that
enters TIMING is no event of R126. -/
def State.loweringEnteredForecast (z arrival : Nat) (s : State) : State :=
  match s.phase z with
  | .idle =>
    if s.isRunning = false then s.setPhase z .deferred
    else if s.requestsAtOnce z arrival then (s.requestClaim z).claimEvaluation
    else s.enterTiming z arrival
  | _ => s

/-- Notice that the arrival time of a FORECAST zone has changed (R122). -/
def State.loweringArrivalChanged (z arrival : Nat) (s : State) : State :=
  match s.phase z with
  | .timing _ =>
    if s.startPassed z arrival then (s.requestClaim z).claimEvaluation
    else s.enterTiming z arrival
  | .waiting =>
    let moved := s.enterWait z
    if moved.lower.waitList.head? = s.lower.waitList.head? then moved else moved.claimEvaluation
  | _ => s

/-- Notice that a zone has entered SHADED (R124). -/
def State.loweringEnteredShaded (z : Nat) (s : State) : State :=
  match s.phase z with
  | .timing _ => (s.requestClaim z).claimEvaluation
  | .empty => (s.requestClaim z).claimEvaluation
  | _ => s

/-- Notice that a zone has returned to CLEAR (R130): in every phase the zone enters IDLE. -/
def State.loweringReturnedClear (z : Nat) (s : State) : State :=
  let idle := s.setPhase z .idle
  match s.phase z with
  | .waiting =>
    let left := idle.leaveWait z
    if s.lower.waitList.head? = some z then left.claimEvaluation else left
  | .lowering c =>
    ({ idle with lower := { idle.lower with fallClaimed := idle.lower.fallClaimed - c.rate } } : State).claimEvaluation
  | _ => idle

/-- The start timer of a zone expires (R123). -/
def State.loweringStart (z : Nat) (s : State) : State := (s.requestClaim z).claimEvaluation

/-- The planned end of a zone's claim is reached (R129). -/
def State.loweringPlannedEnd (z : Nat) (s : State) : State :=
  match s.phase z with
  | .lowering c =>
    let s₁ := s.setPhase z .lowered
    ({ s₁ with lower := { s₁.lower with fallClaimed := s₁.lower.fallClaimed - c.rate } } : State).claimEvaluation
  | _ => s

/-! ### Cover condition, Ldown, recall (R123, R131, R133) -/

/-- Notice of a new cover condition (R123). -/
def State.loweringCoverChanged (c : CoverCond) (s : State) : State :=
  if c ≠ .full && s.policy.early then s.timingZonesRequest else s

/-- The lowering cut claim of an entry: none for a freed entry or a record that has left BOUND (R131). -/
def State.cutUnit (u : ClaimUnit) (s : State) : State :=
  let r := s.record u.slot
  if u.freed || r.state ≠ .bound then s
  else s.stageClaim .loweringCut u.slot (min u.start (max u.target r.lastOutput)) u.rate

/-- The claim of a zone is cut and the zone requests at once (R131). Claim evaluation is run by the caller. -/
def State.cutClaim (z : Nat) (s : State) : State :=
  match s.phase z with
  | .lowering c =>
    let s₁ := c.units.foldl (fun t u => t.cutUnit u) s
    let s₂ : State := { s₁ with lower := { s₁.lower with fallClaimed := s₁.lower.fallClaimed - c.rate } }
    s₂.requestClaim z
  | _ => s

/-- The newest live claim, by the order of the grants (R131). -/
def State.newestClaim (s : State) : Option Nat :=
  allSixteen.foldl (init := none) fun best z =>
    match s.phase z, best with
    | .lowering _, none => some z
    | .lowering c, some b =>
      match s.phase b with
      | .lowering d => if d.seq < c.seq then some z else best
      | _ => some z
    | _, _ => best

/-- Claims are cut, newest first, until fall claimed is within Ldown (R131). -/
def State.cutToLdown : Nat → State → State
  | 0, s => s
  | k + 1, s =>
    if s.lower.fallClaimed ≤ s.line.ldown then s
    else
      match s.newestClaim with
      | none => s
      | some z => State.cutToLdown k (s.cutClaim z)

/-- Notice of a change of Ldown from the value given to the one now held (R131). -/
def State.ldownChanged (old : Nat) (s : State) : State :=
  if s.line.ldown < old then
    if s.line.ldown < s.lower.fallClaimed then (State.cutToLdown 16 s).claimEvaluation else s
  else if old < s.line.ldown then s.claimEvaluation
  else s

/-- Notice that a recall begins (R133): claims, wait list and start timers end; zones out of CLEAR are DEFERRED. -/
def State.loweringRecallBegins (s : State) : State :=
  { s with lower := { s.lower with
      phases := tabulate 16 fun z => if (s.zone z).state = .clear then .idle else .deferred
      waitList := []
      fallClaimed := 0 } }

/-- A DEFERRED zone is taken up when the governor has become RUNNING (R133). -/
def State.resumeZone (z : Nat) (s : State) : State :=
  match s.phase z with
  | .deferred =>
    match (s.zone z).state with
    | .shaded => s.requestClaim z
    | .forecast =>
      if s.requestsAtOnce z (s.arrivalOf z) then s.requestClaim z else s.enterTiming z (s.arrivalOf z)
    | .clear => s
  | _ => s

/-- Notice that the governor has become RUNNING (R133). -/
def State.loweringRunning (s : State) : State :=
  (allSixteen.foldl (init := s) fun t z => t.resumeZone z).claimEvaluation

/-- A record has become VACANT: its entries in live claims are marked freed (R4, R132). -/
def State.freeClaimUnits (n : Nat) (s : State) : State :=
  { s with lower := { s.lower with
      phases := tabulate 16 fun z =>
        match s.phase z with
        | .lowering c =>
          .lowering { c with units := c.units.map fun u => if u.slot = n then { u with freed := true } else u }
        | p => p } }

end Sys2Proof.Machine
end

