-- ==== Sys2Proof/Machine/Line.lean ====
section
/-! DEFINITION. The Line Controller: usable storage, the line step, the cover and its orders, breaches, the cover
condition (R138 to R158). -/

namespace Sys2Proof.Machine

/-! ### Counted limits (R141) -/

/-- The counted state of charge: 0 ‰ with no last report, at most 1000 ‰. -/
def UnitRecord.countedCharge (r : UnitRecord) : Nat :=
  match r.lastReport with
  | some (.storage _ charge _ _ _) => min charge 1000
  | _ => 0

/-- The counted discharge limit: 0 kW at or below the reserve floor. -/
def UnitRecord.countedDischarge (reserve : Nat) (r : UnitRecord) : Nat :=
  match r.lastReport with
  | some (.storage _ _ discharge _ _) => if r.countedCharge ≤ reserve then 0 else discharge
  | _ => 0

/-- The counted charge limit. -/
def UnitRecord.countedChargeLimit (r : UnitRecord) : Nat :=
  match r.lastReport with
  | some (.storage _ _ _ limit _) => limit
  | _ => 0

/-- The signed output of the last report of a converter. -/
def UnitRecord.storageOutput (r : UnitRecord) : Int :=
  match r.lastReport with
  | some (.storage output _ _ _ _) => output
  | _ => 0

/-- The share the next COVER to a slot would carry: the pending one, otherwise the last sent, 0 kW with none (R142). -/
def State.nextShare (s : State) (n : Nat) : Int :=
  match (s.tx n).cover with
  | some c => c.share
  | none => (s.lastShare n).getD 0

/-- A share clipped to the counted limits of a record (R142, R144). -/
def clipShare (reserve : Nat) (r : UnitRecord) (share : Int) : Int :=
  max (min share (r.countedDischarge reserve)) (-(r.countedChargeLimit : Int))

/-- The next share of a usable converter is clipped to its counted limits by a new order (R142). -/
def State.clipCover (n : Nat) (s : State) : State :=
  let r := s.record n
  let clipped := clipShare s.policy.reserve r (s.nextShare n)
  if r.usable = false || clipped = s.nextShare n then s else s.orderCover n clipped

/-! ### The cover condition (R150, R151) -/

/-- The cover condition as R150 gives it. -/
def State.conditionNow (s : State) : CoverCond :=
  match s.usableSlots with
  | [] => .none
  | slots => if slots.any fun n => decide (s.policy.caution < (s.record n).countedCharge) then .full else .caution

/-- The cover condition is worked afresh; a change raises COVER CONDITION and is notified (R150, R151). -/
def State.workCondition (s : State) : State :=
  let c := s.conditionNow
  if c = s.line.condition then s
  else
    (({ s with line := { s.line with condition := c } } : State).raiseCause .coverCondition).loweringCoverChanged c

/-! ### The line step (R140) -/

/-- A limit's step in kW: the limit times the line step setting, divided by 60,000, at least 1 kW (R140). -/
def stepOf (limit lineStep : Nat) : Nat := max 1 (limit * lineStep / 60000)

/-- PL as it is stepped after S (R140, steps 1 and 2). -/
def State.steppedLine (s : State) : Int :=
  let sum : Int := s.arraySum
  match s.line.pl with
  | none => sum
  | some p =>
    min (max sum (p - (stepOf s.line.ldown s.policy.lineStep : Int))) (p + (stepOf s.line.lup s.policy.lineStep : Int))

/-- The weight of a converter in the direction of c (R143). -/
def coverWeight (reserve : Nat) (r : UnitRecord) (c : Int) : Nat :=
  if 0 < c then r.countedDischarge reserve else if c < 0 then r.countedChargeLimit else 0

/-- A share in proportion to a weight, its magnitude rounded down (R143). -/
def proportion (c : Int) (weight sum : Nat) : Int :=
  if 0 ≤ c then ((c.natAbs * weight / sum : Nat) : Int) else -((c.natAbs * weight / sum : Nat) : Int)

/-- The remainder goes to the share of the lowest-numbered usable converter (R143). -/
def addRemainder (c : Int) (shares : List (Nat × Int)) : List (Nat × Int) :=
  match shares with
  | [] => []
  | (n, x) :: rest => (n, x + (c - (shares.map (·.2)).sum)) :: rest

/-- The split of a cover over the usable converters, in slot order (R143). -/
def State.splitCover (s : State) (c : Int) : List (Nat × Int) :=
  let weights := s.usableSlots.map fun n => (n, coverWeight s.policy.reserve (s.record n) c)
  let sum := (weights.map (·.2)).sum
  if c = 0 ∨ sum = 0 then weights.map fun w => (w.1, 0)
  else addRemainder c (weights.map fun w => (w.1, proportion c w.2 sum))

/-- The clipped shares of a split (R144). -/
def State.clippedShares (s : State) (c : Int) : List (Nat × Int) :=
  (s.splitCover c).map fun x => (x.1, clipShare s.policy.reserve (s.record x.1) x.2)

/-- A converter is ordered to a new share where it moves by the deadband or comes to 0 kW (R145). -/
def State.orderShare (x : Nat × Int) (s : State) : State :=
  let old := s.nextShare x.1
  if (s.policy.deadband ≤ (x.2 - old).natAbs ∧ x.2 ≠ old) ∨ (x.2 = 0 ∧ old ≠ 0) then s.orderCover x.1 x.2 else s

/-- A breach counter advances and stays at 65,535 (R149). -/
def advance16 (n : Nat) : Nat := min (n + 1) 65535

/-- The breach episode is worked from c and c′ of the step (R148, R149). -/
def State.workEpisode (c given : Int) (s : State) : State :=
  if given < c then
    match s.line.episode with
    | .fall _ => s
    | _ => ({ s with line := { s.line with
        episode := .fall s.now, fallBreaches := advance16 s.line.fallBreaches } } : State).raiseCause .lineBreach
  else if c < given then
    match s.line.episode with
    | .rise _ => s
    | _ => ({ s with line := { s.line with
        episode := .rise s.now, riseBreaches := advance16 s.line.riseBreaches } } : State).raiseCause .lineBreach
  else { s with line := { s.line with episode := .none } }

/-- One line step (R140): the timer starts again, PL is stepped, the cover is worked, split and clipped, PL re-based at
a shortfall (R147), the episode worked (R148), and the orders handed over (R145). -/
def State.stepLine (s : State) : State :=
  let pl := s.steppedLine
  let sum : Int := s.arraySum
  let c := pl - sum
  let shares := s.clippedShares c
  let given := (shares.map (·.2)).sum
  let s₁ : State := { s with line := { s.line with
    timer := some (s.now + ms s.policy.lineStep)
    pl := some (if given = c then pl else sum + given)
    cover := c
    given := given } }
  shares.foldl (fun t x => t.orderShare x) (s₁.workEpisode c given)

end Sys2Proof.Machine
end

