-- ==== Sys2Proof/Machine/Operands.lean ====
section
/-! DEFINITION. Every operand form: the request payloads with their fixed fields and parts (R175, R193, spec/10 10.3), the
frames of the supervisor port (R173, R174, R176) and the frames of the field link (R28, R192). -/

namespace Sys2Proof.Machine

/-! ### Code tables (spec/10 10.4) -/

/-- The code of a status. -/
def Status.code : Status → Byte
  | .done => 0x00 | .accepted => 0x01 | .busy => 0x02 | .wrongState => 0x03 | .noSuch => 0x04 | .stale => 0x05
  | .locked => 0x06 | .range => 0x07 | .unknown => 0x08 | .checkError => 0x09 | .notReady => 0x0A
  | .frameTimeout => 0x0B

/-- The code of a kind (spec/10 10.2). -/
def Kind.code : Kind → Nat
  | .inverter => 0 | .storage => 1

/-- The code of a record state. -/
def RecState.code : RecState → Nat
  | .vacant => 0 | .addressed => 1 | .bound => 2 | .dormant => 3 | .lapsed => 4 | .recalled => 5 | .retiring => 6

/-- The record state a code names; none above 6 (R19). -/
def RecState.ofCode : Nat → Option RecState
  | 0 => some .vacant | 1 => some .addressed | 2 => some .bound | 3 => some .dormant | 4 => some .lapsed
  | 5 => some .recalled | 6 => some .retiring | _ => none

/-- The code of a zone state. -/
def ZoneState.code : ZoneState → Nat
  | .clear => 0 | .forecast => 1 | .shaded => 2

/-- The code of a lowering phase. -/
def Phase.code : Phase → Nat
  | .idle => 0 | .timing _ => 1 | .waiting => 2 | .lowering _ => 3 | .lowered => 4 | .empty => 5 | .deferred => 6

/-- The code of a cover condition. -/
def CoverCond.code : CoverCond → Nat
  | .full => 0 | .caution => 1 | .none => 2

/-- The code of a breach episode. -/
def Episode.code : Episode → Nat
  | .none => 0 | .fall _ => 1 | .rise _ => 2

/-- The code of a governor state. -/
def Governor.code : Governor → Nat
  | .recalling _ => 0 | .running => 1

/-- The code of a reset kind. -/
def ResetKind.code : ResetKind → Nat
  | .powerOn => 0 | .resetPin => 1 | .restart => 2

/-! ### Request payloads (R193) -/

/-- One optional part: its code and its value. -/
abbrev Part := Byte × List Byte

/-- The parts of a payload; none where a part code is not defined or the payload ends inside a part (R193). The first
argument gives the length of a part's value from its code and the bytes that follow. -/
def parseParts (len : Byte → List Byte → Option Nat) : Nat → List Byte → Option (List Part)
  | _, [] => some []
  | 0, _ :: _ => none
  | k + 1, code :: rest =>
    match len code rest with
    | none => none
    | some n =>
      if rest.length < n then none
      else (parseParts len k (rest.drop n)).map fun parts => (code, rest.take n) :: parts

/-- No part code stands twice (R193). -/
def partsDistinct : List Part → Bool
  | [] => true
  | p :: rest => rest.all (fun q => q.1 ≠ p.1) && partsDistinct rest

/-- The fixed fields and the parts of a payload; none where its form is out of range (R175, R193). -/
def requestForm (fixed : Nat) (len : Byte → List Byte → Option Nat) (payload : List Byte) :
    Option (List Byte × List Part) :=
  if payload.length < fixed then none
  else
    match parseParts len payload.length (payload.drop fixed) with
    | none => none
    | some parts => if partsDistinct parts then some (payload.take fixed, parts) else none

/-- A request that defines no part. -/
def noParts (_ : Byte) (_ : List Byte) : Option Nat := none

/-- The value of a part. -/
def partValue (parts : List Part) (code : Byte) : Option (List Byte) := (parts.find? fun p => p.1 = code).map (·.2)

/-- The value of a part as a number. -/
def partNat (parts : List Part) (code : Byte) : Option Nat := (partValue parts code).map beNat

/-- A yes-or-no part holds 0 or 1, or is not carried (R193). -/
def yesNoOk (parts : List Part) (code : Byte) : Bool :=
  match partNat parts code with
  | none => true
  | some n => n < 2

/-- A request with neither fixed fields nor parts: its payload is empty. -/
def emptyForm (payload : List Byte) : Option Unit := (requestForm 0 noParts payload).map fun _ => ()

/-- SET MASK: the mask; bits above 11 are not read (R186). -/
def maskForm (payload : List Byte) : Option (Option (BitVec 12)) :=
  (requestForm 0 (fun c _ => if c = 0x01 then some 2 else none) payload).map fun f =>
    (partNat f.2 0x01).map fun n => BitVec.ofNat 12 n

/-- The length of the value of each part of SET POLICY (spec/10 10.3). -/
def policyWidth (code : Byte) : Option Nat :=
  match code.toNat with
  | 0x01 | 0x05 | 0x06 | 0x07 | 0x09 | 0x0B | 0x0E | 0x0F => some 1
  | 0x02 | 0x03 | 0x04 | 0x08 | 0x0A | 0x0C | 0x0D | 0x10 | 0x11 | 0x12 | 0x13 | 0x14 | 0x15 | 0x16 => some 2
  | _ => none

/-- SET POLICY: its parts; early lowering is a yes-or-no byte (log 21). -/
def policyForm (payload : List Byte) : Option (List Part) :=
  match requestForm 0 (fun c _ => policyWidth c) payload with
  | none => none
  | some f => if yesNoOk f.2 0x0F then some f.2 else none

/-- What LOOKUP names: a slot or a serial (R18). -/
inductive LookupBy where
  | slot (n : Nat)
  | serial (x : Serial)
  deriving DecidableEq, Repr

/-- LOOKUP: selector 0 and a slot, or selector 1 and a serial. -/
def lookupForm (payload : List Byte) : Option LookupBy :=
  match payload with
  | [sel, slot] => if sel = 0 then some (.slot slot.toNat) else none
  | [sel, a, b, c, d, e, f] => if sel = 1 then some (.serial (BitVec.ofNat 48 (beNat [a, b, c, d, e, f]))) else none
  | _ => none

/-- What LIST selects: a state code or a zone number, whether or not it is in range (R19). -/
inductive ListBy where
  | state (code : Nat)
  | zone (z : Nat)
  deriving DecidableEq, Repr

/-- LIST: selector 0 and a state code, or selector 1 and a zone. -/
def listForm (payload : List Byte) : Option ListBy :=
  match payload with
  | [sel, v] => if sel = 0 then some (.state v.toNat) else if sel = 1 then some (.zone v.toNat) else none
  | _ => none

/-- The binding parts BIND and AMEND carry. -/
structure BindParts where
  zone : Option Nat
  profile : Option Nat
  exempt : Option Bool
  rating : Option Nat
  deriving DecidableEq, Repr

/-- The binding parts among the parts of a payload. -/
def bindParts (parts : List Part) : BindParts :=
  { zone := partNat parts 0x01, profile := partNat parts 0x02, exempt := (partNat parts 0x03).map (· = 1),
    rating := partNat parts 0x04 }

/-- The length of each binding part. -/
def bindWidth (code : Byte) : Option Nat :=
  match code.toNat with
  | 0x01 | 0x02 | 0x03 => some 1
  | 0x04 => some 2
  | _ => none

/-- BIND: a slot and the binding parts. -/
structure BindArgs where
  slot : Nat
  parts : BindParts
  deriving DecidableEq, Repr

/-- BIND's form (R9). -/
def bindForm (payload : List Byte) : Option BindArgs :=
  match requestForm 1 (fun c _ => bindWidth c) payload with
  | none => none
  | some f => if yesNoOk f.2 0x03 then some { slot := beNat f.1, parts := bindParts f.2 } else none

/-- AMEND: a slot, the expected revision, the binding parts and the clear-health mark. -/
structure AmendArgs where
  slot : Nat
  revision : BitVec 8
  parts : BindParts
  clearHealth : Bool
  deriving DecidableEq, Repr

/-- AMEND's form (R20). -/
def amendForm (payload : List Byte) : Option AmendArgs :=
  match requestForm 2 (fun c _ => if c = 0x05 then some 0 else bindWidth c) payload with
  | none => none
  | some f =>
    if yesNoOk f.2 0x03 then
      some { slot := beNat (f.1.take 1), revision := BitVec.ofNat 8 (beNat (f.1.drop 1)), parts := bindParts f.2,
             clearHealth := (partValue f.2 0x05).isSome }
    else none

/-- A request with one fixed byte and no part. -/
def oneByteForm (payload : List Byte) : Option Nat := (requestForm 1 noParts payload).map fun f => beNat f.1

/-- SET PROFILE: a profile number and two optional indices. -/
structure ProfileArgs where
  profile : Nat
  up : Option Nat
  down : Option Nat
  deriving DecidableEq, Repr

/-- SET PROFILE's form (R55). -/
def profileForm (payload : List Byte) : Option ProfileArgs :=
  (requestForm 1 (fun c _ => if c = 0x01 ∨ c = 0x02 then some 1 else none) payload).map fun f =>
    { profile := beNat f.1, up := partNat f.2 0x01, down := partNat f.2 0x02 }

/-- READ QUEUE's form: an optional start position (R98). -/
def queueForm (payload : List Byte) : Option (Option Nat) :=
  (requestForm 0 (fun c _ => if c = 0x01 then some 1 else none) payload).map fun f => partNat f.2 0x01

/-- SET ZONE: a zone number, an optional shade floor and the release mark. -/
structure ZoneArgs where
  zone : Nat
  floor : Option Nat
  release : Bool
  deriving DecidableEq, Repr

/-- SET ZONE's form (R115). -/
def zoneForm (payload : List Byte) : Option ZoneArgs :=
  (requestForm 1 (fun c _ => if c = 0x01 then some 2 else if c = 0x02 then some 0 else none) payload).map fun f =>
    { zone := beNat f.1, floor := partNat f.2 0x01, release := (partValue f.2 0x02).isSome }

/-- The entries of a list part, each a zone and a lead. -/
def mapEntries : List Byte → List MapEntry
  | z :: l :: rest => { zone := z.toNat, lead := l.toNat } :: mapEntries rest
  | _ => []

/-- SET SENSOR MAP: a sensor number and an optional list. -/
structure MapArgs where
  sensor : Nat
  entries : Option (List MapEntry)
  deriving DecidableEq, Repr

/-- The length of the list part: its count byte and two bytes for each entry (spec/10 10.3). -/
def mapWidth (code : Byte) (rest : List Byte) : Option Nat :=
  if code = 0x01 then
    match rest with
    | [] => none
    | count :: _ => some (1 + 2 * count.toNat)
  else none

/-- SET SENSOR MAP's form (R105). -/
def mapForm (payload : List Byte) : Option MapArgs :=
  (requestForm 1 mapWidth payload).map fun f =>
    { sensor := beNat f.1, entries := (partValue f.2 0x01).map fun v => mapEntries (v.drop 1) }

/-- READ CLAIMS: an optional zone and an optional start position. -/
structure ClaimsArgs where
  zone : Option Nat
  start : Option Nat
  deriving DecidableEq, Repr

/-- READ CLAIMS' form (R135). -/
def claimsForm (payload : List Byte) : Option ClaimsArgs :=
  (requestForm 0 (fun c _ => if c = 0x01 ∨ c = 0x02 then some 1 else none) payload).map fun f =>
    { zone := partNat f.2 0x01, start := partNat f.2 0x02 }

/-- READ PLANT's form: whether the clear mark is carried (R155). -/
def plantForm (payload : List Byte) : Option Bool :=
  (requestForm 0 (fun c _ => if c = 0x01 then some 0 else none) payload).map fun f => (partValue f.2 0x01).isSome

/-- SET LIMITS: the new limits carried. -/
structure LimitsArgs where
  lup : Option Nat
  ldown : Option Nat
  deriving DecidableEq, Repr

/-- SET LIMITS' form (R153). -/
def limitsForm (payload : List Byte) : Option LimitsArgs :=
  (requestForm 0 (fun c _ => if c = 0x01 ∨ c = 0x02 then some 4 else none) payload).map fun f =>
    { lup := partNat f.2 0x01, ldown := partNat f.2 0x02 }

/-! ### Frames of the supervisor port -/

/-- The bytes of a request: code, length, payload and CRC-8 (R173, R174). -/
def requestBytes (code : Byte) (payload : List Byte) : List Byte :=
  let body := code :: byte payload.length :: payload
  body ++ [crc8 body]

/-- The request of a frame that passes its check: none where the length is above 250, the frame ends before the request
is complete, or the CRC-8 does not match; bytes after the CRC-8 are fill (R173, R174). -/
def parseRequest : List Byte → Option (Byte × List Byte)
  | code :: len :: rest =>
    let payload := rest.take len.toNat
    if 250 < len.toNat then none
    else
      match rest[len.toNat]? with
      | none => none
      | some crc => if crc8 (code :: len :: payload) = crc then some (code, payload) else none
  | _ => none

/-- The bytes of a response: status, length, payload and CRC-8 (R176). -/
def Response.bytes (r : Response) : List Byte :=
  let payload := boundedPayload r.payload
  let body := r.status.code :: byte payload.length :: payload
  body ++ [crc8 body]

/-! ### Frames of the field link (R28, R192) -/

/-- The bytes of a frame: address, kind, length, payload and CRC-16, high byte first. -/
def fieldFrame (addr : Nat) (kind : Byte) (payload : List Byte) : List Byte :=
  let body := byte addr :: kind :: byte payload.length :: payload
  body ++ beBytes 2 (crc16 body).toNat

/-- The kinds of frame a unit sends. -/
inductive UnitFrame where
  | join
  | report
  | released
  deriving DecidableEq, Repr

/-- The kind a kind byte names, with the payload lengths of that kind (R28, R192). -/
def unitFrameOf (kind : Byte) (length : Nat) : Option UnitFrame :=
  if kind = 0x11 ∧ length = 9 then some .join
  else if kind = 0x12 ∧ (length = 8 ∨ length = 16) then some .report
  else if kind = 0x13 ∧ length = 0 then some .released
  else none

/-- A received frame that is valid: its address, kind and payload (R28). -/
def parseFieldFrame : List Byte → Option (Byte × UnitFrame × List Byte)
  | addr :: kind :: len :: rest =>
    let payload := rest.take len.toNat
    if rest.length = len.toNat + 2 ∧ beNat (rest.drop len.toNat) = (crc16 (addr :: kind :: len :: payload)).toNat then
      (unitFrameOf kind payload.length).map fun k => (addr, k, payload)
    else none
  | _ => none

/-- The further fields of a long-form REPORT. -/
structure LongFields where
  output : Int
  charge : Nat
  discharge : Nat
  chargeLimit : Nat
  deriving DecidableEq, Repr

/-- The fields of a REPORT; `bank` is absent for NONE (R32, R192). -/
structure ReportFields where
  output : Nat
  available : Nat
  bank : Option Bool
  ceiling : Nat
  dormant : Bool
  fallback : Bool
  long : Option LongFields
  deriving DecidableEq, Repr

/-- The applied bank a byte names: 0 or 1, any other value NONE (R192). -/
def bankOf (b : Byte) : Option Bool := if b = 0 then some false else if b = 1 then some true else none

/-- The fields of a REPORT payload; none where its length is neither 8 nor 16 (R28). -/
def parseReport : List Byte → Option ReportFields
  | o1 :: o0 :: a1 :: a0 :: b :: c1 :: c0 :: f :: rest =>
    let short : ReportFields :=
      { output := beNat [o1, o0], available := beNat [a1, a0], bank := bankOf b, ceiling := beNat [c1, c0],
        dormant := f.getLsbD 0, fallback := f.getLsbD 1, long := none }
    match rest with
    | [] => some short
    | [s1, s0, e1, e0, d1, d0, h1, h0] =>
      some { short with long := some { output := beSigned [s1, s0], charge := beNat [e1, e0],
                                       discharge := beNat [d1, d0], chargeLimit := beNat [h1, h0] } }
    | _ => none
  | _ => none

/-- A REPORT has the form, short or long, of the kind of the record (R30). -/
def ReportFields.fits (f : ReportFields) (k : Kind) : Bool := f.long.isSome = (k = .storage)

/-- The values of a JOIN. -/
structure JoinFields where
  serial : Serial
  kind : Kind
  rating : Nat
  deriving DecidableEq, Repr

/-- The values of a JOIN payload that pass the checks of R36: a kind byte of 0 or 1, a rating of 10 to 4000 kW. -/
def parseJoin : List Byte → Option JoinFields
  | [a, b, c, d, e, f, k, r1, r0] =>
    let rating := beNat [r1, r0]
    if (k = 0 ∨ k = 1) ∧ 10 ≤ rating ∧ rating ≤ 4000 then
      some { serial := BitVec.ofNat 48 (beNat [a, b, c, d, e, f]), kind := if k = 0 then .inverter else .storage,
             rating := rating }
    else none
  | _ => none

/-- The envelope part of a POLL and of a ZONE ENVELOPE entry: bank, ceiling, rate. -/
def envelopeBytes (e : Envelope) : List Byte := boolByte e.bank :: (beBytes 2 e.ceiling ++ beBytes 2 e.rate)

end Sys2Proof.Machine
end

