-- ==== Sys2Proof/Machine/Raise.lean ====
section
/-! DEFINITION. The Raise Allocator: the queue, grant evaluation, the ends of a ticket, the hold (R73 to R96). -/

namespace Sys2Proof.Machine

/-! ### Grant evaluation (R80 to R83) -/

/-- The lowest-numbered free place of the ticket table (R78). -/
def State.freePlace (s : State) : Option Nat := allSixteen.find? fun k => (s.ticket k).isNone

/-- The candidate: the first entry whose record's zone is CLEAR and, while hold is effective, whose record is
hold-exempt (R81). -/
def State.candidate (s : State) : Option QueueEntry :=
  s.raise.queue.find? fun e => s.zoneClear (s.record e.slot) && (!s.raise.effHold || (s.record e.slot).exempt)

/-- The rate of a grant, where one can be made (R82). -/
def State.grantRate (s : State) (r : UnitRecord) : Option Nat :=
  let up := s.upRate r
  let rate := min up (s.line.lup - s.raise.riseClaimed)
  if 0 < rate ∧ (s.policy.minClaim ≤ rate ∨ rate = up) then some rate else none

/-- The ticket of a grant at a rate (R83, steps 1 to 4). The start ceiling of a record with no envelope, which has no
effective ceiling (R58), is 0 kW: DESIGN CHOICE (log 30). -/
def State.newTicket (s : State) (e : QueueEntry) (rate : Nat) : Ticket :=
  let r := s.record e.slot
  let start := r.effCeiling.getD 0
  let target := min (start + max 1 (min e.wanted (rate * s.policy.ticketSpan / 60))) r.rating
  { slot := e.slot, start := start, target := target, rate := rate, granted := s.now,
    expiry := s.now + ms (ceilDiv ((target - start) * 60000) rate) + sec s.policy.ticketGrace,
    seq := s.raise.nextSeq }

/-- An entry leaves the queue (R77). -/
def State.removeEntry (n : Nat) (s : State) : State :=
  { s with raise := { s.raise with queue := s.raise.queue.filter fun e => e.slot ≠ n } }

/-- A grant (R83): the ticket takes its place, rise claimed rises, the entry leaves the queue, and the grant stage claim
is sent. -/
def State.grant (e : QueueEntry) (k rate : Nat) (s : State) : State :=
  let t := s.newTicket e rate
  let s₁ := s.setTicket k (some t)
  let s₂ : State := { s₁ with raise := { s₁.raise with
    riseClaimed := s₁.raise.riseClaimed + rate, nextSeq := s₁.raise.nextSeq + 1 } }
  (s₂.removeEntry e.slot).stageClaim .raise e.slot t.target rate

/-- Candidates are granted one after another until one cannot be (R81). -/
def State.grantLoop : Nat → State → State
  | 0, s => s
  | k + 1, s =>
    match s.candidate with
    | none => s
    | some e =>
      match s.freePlace, s.grantRate (s.record e.slot) with
      | some p, some rate => State.grantLoop k (s.grant e p rate)
      | _, _ => s

/-- Grant evaluation: one operation, which grants nothing while RECALLING (R80, R81). -/
def State.grantEvaluation (s : State) : State :=
  if s.isRunning then State.grantLoop s.raise.queue.length s else s

/-- Grant evaluation where it is called for. -/
def State.evaluateIf (b : Bool) (s : State) : State := if b then s.grantEvaluation else s

/-! ### The ends of a ticket (R84 to R91) -/

/-- A ticket ends: its place is freed and its rate leaves rise claimed (R84). Evaluation is run by the caller. -/
def State.endTicket (k : Nat) (s : State) : State :=
  match s.ticket k with
  | none => s
  | some t =>
    let s₁ := s.setTicket k none
    { s₁ with raise := { s₁.raise with riseClaimed := s₁.raise.riseClaimed - t.rate } }

/-- The cut ceiling (R87). -/
def State.cutCeiling (s : State) (t : Ticket) : Nat :=
  min t.target (max t.start (s.record t.slot).lastOutput)

/-- A ticket is cut: its cut claim is sent and it ends (R87). Evaluation is run by the caller. -/
def State.cutTicket (k : Nat) (s : State) : State :=
  match s.ticket k with
  | none => s
  | some t => (s.stageClaim .raise t.slot (s.cutCeiling t) (s.descentRate (s.record t.slot))).endTicket k

/-- The ticket of a slot is cut, if it has one. -/
def State.cutSlot (n : Nat) (s : State) : State :=
  match s.ticketOf n with
  | none => s
  | some k => s.cutTicket k

/-- The ticket of a slot ends without a claim, if it has one (R4, R6). -/
def State.endSlotTicket (n : Nat) (s : State) : State :=
  match s.ticketOf n with
  | none => s
  | some k => s.endTicket k

/-- The entry of a slot is the head of the queue. -/
def State.isHead (s : State) (n : Nat) : Bool :=
  match s.raise.queue with
  | [] => false
  | e :: _ => e.slot = n

/-- Ending a slot's ticket and removing its entry calls for an evaluation: a ticket ends or the head changes (R80). -/
def State.callsEvaluation (s : State) (n : Nat) : Bool := (s.ticketOf n).isSome || s.isHead n

/-- The ticket of a slot is cut and its entry removed, on one notice, with one evaluation at its end (R21, R56, R90). -/
def State.cutAndRemove (n : Nat) (s : State) : State :=
  ((s.cutSlot n).removeEntry n).evaluateIf (s.callsEvaluation n)

/-- The entry of a slot is removed on a notice; evaluation runs where the head changes (R25, R77). -/
def State.dropEntry (n : Nat) (s : State) : State := (s.removeEntry n).evaluateIf (s.isHead n)

/-- Notice that a zone has left CLEAR (R88): the tickets of its BOUND inverters are cut, their entries removed, and one
evaluation runs. -/
def State.raiseZoneLeftClear (z : Nat) (s : State) : State :=
  let members := s.slotsWhere fun r => r.boundInverter && r.inZone z
  (members.foldl (fun t n => (t.cutSlot n).removeEntry n) s).grantEvaluation

/-- The newest live ticket, by the order of the grants (R89). -/
def State.newestTicket (s : State) : Option Nat :=
  allSixteen.foldl (init := none) fun best k =>
    match s.ticket k, best with
    | none, _ => best
    | some _, none => some k
    | some t, some b =>
      match s.ticket b with
      | some u => if u.seq < t.seq then some k else best
      | none => some k

/-- Tickets are cut, newest first, until rise claimed is within Lup (R89). -/
def State.cutToLup : Nat → State → State
  | 0, s => s
  | k + 1, s =>
    if s.raise.riseClaimed ≤ s.line.lup then s
    else
      match s.newestTicket with
      | none => s
      | some t => State.cutToLup k (s.cutTicket t)

/-- Notice of a change of Lup from the value given to the one now held (R89). -/
def State.lupChanged (old : Nat) (s : State) : State :=
  if s.line.lup < old then
    if s.line.lup < s.raise.riseClaimed then (State.cutToLup 16 s).grantEvaluation else s
  else if old < s.line.lup then s.grantEvaluation
  else s

/-- Notice that a recall begins: every live ticket ends and the queue is emptied (R91). -/
def State.raiseRecallBegins (s : State) : State :=
  { s with raise := { s.raise with queue := [], tickets := Vector.replicate 16 none, riseClaimed := 0 } }

/-! ### The hold (R92 to R96) -/

/-- Effective hold is worked afresh (R94): on a change HOLD CHANGED is raised; where it becomes yes the tickets of
records that are not exempt are cut; one evaluation runs. -/
def State.recomputeHold (s : State) : State :=
  let eff := s.raise.holdFiltered || s.raise.holdFlag
  if eff = s.raise.effHold then s
  else
    let s₁ : State := ({ s with raise := { s.raise with effHold := eff } } : State).raiseCause .holdChanged
    if eff then
      (allSixteen.foldl (init := s₁) fun t k =>
        match t.ticket k with
        | some x => if (t.record x.slot).exempt then t else t.cutTicket k
        | none => t).grantEvaluation
    else s₁.grantEvaluation

/-! ### The REPORT in the Raise Allocator (R74 to R76, R85) -/

/-- The completion test (R85). -/
def State.completionTest (n : Nat) (f : ReportFields) (s : State) : State :=
  match s.ticketOf n with
  | none => s
  | some k =>
    match s.ticket k with
    | none => s
    | some t =>
      if t.target ≤ f.output + permille (s.record n).rating 10 then (s.endTicket k).grantEvaluation else s

/-- The wanted amount of a REPORT (R74). One that meets the clamp test asks for nothing, also where the clamp-down has
already cut the ticket and with it the effective ceiling below the available power (R70). A BOUND inverter with no
envelope has no effective ceiling (R58), and R74 does not say what is subtracted for it: 0 kW is a DESIGN CHOICE
(log 30). -/
def State.wantedOf (s : State) (clamps : Bool) (n : Nat) (f : ReportFields) : Nat :=
  if clamps then 0 else min f.available (s.record n).rating - (s.record n).effCeiling.getD 0

/-- The raise test of a record without an entry is met (R74). -/
def State.raiseTestMet (s : State) (clamps : Bool) (n : Nat) (f : ReportFields) : Bool :=
  let r := s.record n
  s.isRunning && r.boundInverter && !r.demoted && s.zoneClear r && (s.ticketOf n).isNone && decide (0 < s.upRate r) &&
    decide (permille r.rating s.policy.raiseThr < s.wantedOf clamps n f)

/-- The raise test of a record without an entry, the update or withdrawal of one with an entry (R74, R75). -/
def State.raiseTest (clamps : Bool) (n : Nat) (f : ReportFields) (s : State) : State :=
  let wanted := s.wantedOf clamps n f
  if s.queued n then
    if permille (s.record n).rating s.policy.raiseThr < wanted then
      { s with raise := { s.raise with
          queue := s.raise.queue.map fun e => if e.slot = n then { e with wanted := wanted } else e } }
    else s.dropEntry n
  else if s.raiseTestMet clamps n f then
    ({ s with raise := { s.raise with
        queue := s.raise.queue ++ [{ slot := n, wanted := wanted, time := s.now }] } } : State).grantEvaluation
  else s

/-- The Raise Allocator reads a REPORT of an INVERTER record in BOUND, the completion test first (R76); `clamps` says
whether the REPORT meets the clamp test (R70). -/
def State.raiseReport (clamps : Bool) (n : Nat) (f : ReportFields) (s : State) : State :=
  if (s.record n).boundInverter then (s.completionTest n f).raiseTest clamps n f else s

end Sys2Proof.Machine
end

