-- ==== Sys2Proof/Machine/Roster.lean ====
section
/-! DEFINITION. The Unit Roster: the transitions of a record, health, joins, the recall (R3 to R27, R36 to R39, R159 to
R168). -/

namespace Sys2Proof.Machine

/-- The lease deadline of a record in a state: the lease interval, or four times it in DORMANT (R7). -/
def State.leaseIn (s : State) (st : RecState) : Nat :=
  s.now + ms (if st = .dormant then 4 * s.policy.leaseInterval else s.policy.leaseInterval)

/-- The lease of a record is set (R7). -/
def State.renewLease (n : Nat) (s : State) : State :=
  let r := s.record n
  s.setRecord n { r with lease := some (s.leaseIn r.state) }

/-- A pending COVER is dropped (R45). -/
def State.dropCover (n : Nat) (s : State) : State := s.setTx n { s.tx n with cover := none }

/-- The cover condition is worked afresh where a converter entered or left BOUND (R150). -/
def State.workConditionIf (b : Bool) (s : State) : State := if b then s.workCondition else s

/-! ### Health (R24 to R26) -/

/-- A health counter advances and stays at 255 (R24). -/
def advance8 (n : Nat) : Nat := min (n + 1) 255

/-- An INVERTER record that is not demoted is demoted by a counter value at or above its threshold, which is not 0 (R25). -/
def demotes (r : UnitRecord) (value thr : Nat) : Bool :=
  r.kind = .inverter && !r.demoted && thr ≠ 0 && decide (thr ≤ value)

/-- A record is demoted: UNIT DEMOTED is raised and its queue entry removed (R25). -/
def State.demote (n : Nat) (s : State) : State :=
  ((s.setRecord n { s.record n with demoted := true }).raiseCause .unitDemoted).dropEntry n

/-- LAPSES of a record advances (R13, R24, R25). -/
def State.advanceLapses (n : Nat) (s : State) : State :=
  let r := s.record n
  let v := advance8 r.lapses
  let t := s.setRecord n { r with lapses := v }
  if demotes r v s.policy.lapsesThr then t.demote n else t

/-- SLOW RAISES of a record advances (R24, R25, R86). -/
def State.advanceSlowRaises (n : Nat) (s : State) : State :=
  let r := s.record n
  let v := advance8 r.slowRaises
  let t := s.setRecord n { r with slowRaises := v }
  if demotes r v s.policy.slowThr then t.demote n else t

/-- ACK MISMATCHES of a record advances; from below its threshold to it raises HEALTH ADVISORY (R24, R26). -/
def State.advanceAckMismatches (n : Nat) (s : State) : State :=
  let r := s.record n
  let v := advance8 r.ackMismatches
  let t := s.setRecord n { r with ackMismatches := v }
  if s.policy.ackThr ≠ 0 ∧ r.ackMismatches < s.policy.ackThr ∧ v = s.policy.ackThr then t.raiseCause .healthAdvisory
  else t

/-! ### Transitions of a record -/

/-- A record becomes VACANT (R4). -/
def State.becomeVacant (n : Nat) (s : State) : State :=
  let calls := s.callsEvaluation n
  let wasUsable := (s.record n).usable
  let s₁ := ((s.endSlotTicket n).removeEntry n).setRecord n .vacant
  let s₂ := (((s₁.dropTx n).setPart n none).setLastShare n none).freeClaimUnits n
  (s₂.workConditionIf wasUsable).evaluateIf calls

/-- A record stops being governed (R6): its ticket ends with no claim left standing, its entry, staged envelope and
affirm deadline go, and with them the reasons of its POLL; a converter that leaves BOUND loses its pending COVER and its last share sent (R45, R146). `change`
gives the rest of the record, `after` what the new state brings with it; one evaluation runs at the end. -/
def State.leaveGoverned (n : Nat) (change : UnitRecord → UnitRecord) (after : State → State) (s : State) : State :=
  let r := s.record n
  let calls := s.callsEvaluation n
  let s₁ := (((s.endSlotTicket n).removeEntry n).setRecord n
    (change { r with staged := none, affirm := none, lease := none, bindDeadline := none })).lapseReasons n
  let s₂ := if r.usable then (s₁.dropCover n).setLastShare n none else s₁
  ((after s₂).workConditionIf r.usable).evaluateIf calls

/-- A STORAGE record that enters BOUND or LAPSED: an affirm-due COVER is queued unless one is pending, and the affirm
deadline is set (R48). -/
def State.affirmStorage (n : Nat) (s : State) : State :=
  if (s.record n).kind = .storage then (s.queueAffirmCover n).renewAffirm n else s

/-- A record enters LAPSED, counted or not (R13). -/
def State.enterLapsed (n : Nat) (counted : Bool) (s : State) : State :=
  s.leaveGoverned n (fun r => { r with state := .lapsed }) fun t =>
    let t₁ := t.affirmStorage n
    if counted then (t₁.advanceLapses n).raiseCause .unitLapsed else t₁

/-- A BOUND record enters DORMANT (R10). -/
def State.enterDormant (n : Nat) (s : State) : State :=
  s.leaveGoverned n (fun r => { r with state := .dormant, lease := some (s.leaseIn .dormant) }) id

/-- A record enters RETIRING: what is pending for the slot is dropped and RELEASE is queued (R16, R42). -/
def State.enterRetiring (n : Nat) (s : State) : State :=
  s.leaveGoverned n (fun r => { r with state := .retiring, releaseDeadline := none })
    fun t => t.setTx n { SlotTx.empty with release := some t.now }

/-- A record enters RECALLED: its active envelope goes as well, and what is pending for the slot (R17, R43). -/
def State.enterRecalled (n : Nat) (s : State) : State :=
  s.leaveGoverned n (fun r => { r with state := .recalled, active := none }) fun t => t.dropTx n

/-- A record enters BOUND: its lease is set; a converter is affirmed, and usable from now on (R7, R9, R12, R15, R48). -/
def State.enterBound (n : Nat) (s : State) : State :=
  let r := s.record n
  let s₁ := s.setRecord n { r with state := .bound, lease := some (s.leaseIn .bound), bindDeadline := none }
  (s₁.affirmStorage n).workConditionIf (r.kind = .storage)

/-- A retirement completes (R16). -/
def State.completeRetirement (n : Nat) (s : State) : State := (s.becomeVacant n).raiseCause .retireDone

/-! ### Stage claims of the Roster -/

/-- The first-envelope claim (R9): the lower of the last reported output and the rating, at the up-rate. -/
def State.firstClaim (n : Nat) (s : State) : State :=
  let r := s.record n
  s.stageClaim .roster n (min r.lastOutput r.rating) (s.upRate r)

/-- The ceiling of the reclaim claim (R14). -/
def State.reclaimCeiling (s : State) (r : UnitRecord) : Nat :=
  let base := r.lastOutput + permille r.rating s.policy.clampMargin
  let limited := match r.active with
    | some a => min a.ceiling base
    | none => base
  min limited r.rating

/-- The claim the Roster sends on account of a REPORT: the reclaim claim in LAPSED (R14), the refresh or first-envelope claim
of a record that woke (R12). Its values are worked from the record as it stands when the Stager takes the claim: DESIGN
CHOICE, R12 and R62 do not say whether the active envelope of a refresh claim is read then or when the Roster acts on the
flags; the two differ where the REPORT has just acknowledged a grant made on it (log 17). -/
def State.reportClaim (n : Nat) (s : State) : State :=
  let r := s.record n
  if r.state = .lapsed then s.stageClaim .roster n (s.reclaimCeiling r) (s.descentRate r)
  else
    match r.active with
    | some a => s.stageClaim .roster n a.ceiling a.rate
    | none => s.firstClaim n

/-! ### Joins (R36 to R39) -/

/-- A record as a new unit takes its slot (R3). -/
def State.newRecord (s : State) (f : JoinFields) : UnitRecord :=
  { UnitRecord.vacant with
    state := .addressed, kind := f.kind, serial := f.serial, rating := f.rating,
    lease := some (s.leaseIn .addressed), bindDeadline := some (s.now + sec s.policy.bindTimeout) }

/-- The lowest-numbered VACANT slot of a kind under the present reserved slot count (R37). -/
def State.vacantSlot (s : State) (k : Kind) : Option Nat :=
  allSlots.find? fun n => (s.record n).state = .vacant && slotKind s.policy.nr n = k

/-- The JOIN of a new unit: it takes a slot and ASSIGN is queued (R3, R37), or it is refused (R38). -/
def State.newUnit (f : JoinFields) (s : State) : State :=
  match s.vacantSlot f.kind with
  | some n =>
    let s₁ := s.setRecord n (s.newRecord f)
    let s₂ := if f.kind = .inverter then s₁.setPart n (some 0) else s₁
    (s₂.queueAssign n).raiseCause .unitWaiting
  | none =>
    ({ s with link := { s.link with refuse := some (f.serial, s.now) } } : State).raiseCause .rosterFull

/-- The slot whose record, not VACANT, has a serial (R36). -/
def State.slotOfSerial (s : State) (x : Serial) : Option Nat :=
  allSlots.find? fun n => (s.record n).state ≠ .vacant && (s.record n).serial = x

/-- A JOIN that passes the checks of R36 is handled by the record its serial matches (R39), or as a new unit (R37). -/
def State.joinUnit (f : JoinFields) (s : State) : State :=
  match s.slotOfSerial f.serial with
  | none => s.newUnit f
  | some n =>
    match (s.record n).state with
    | .recalled | .lapsed => (s.enterLapsed n false).queueAssign n
    | .bound | .dormant => (s.enterLapsed n true).queueAssign n
    | .addressed => s.queueAssign n
    | .retiring => (s.completeRetirement n).newUnit f
    | .vacant => s.newUnit f

/-! ### The recall (R160 to R168) -/

/-- The change of one record at the start of a recall (R160). -/
def State.recallRecord (n : Nat) (s : State) : State :=
  match (s.record n).state with
  | .addressed | .retiring => s.becomeVacant n
  | .bound | .dormant | .lapsed => s.enterRecalled n
  | .vacant | .recalled => s

/-- A recall begins (R160, R161, R43): the window is set, the allocators end their tickets and claims, each record
changes by its state, every ZONE ENVELOPE is dropped and the RECALL broadcast queued. -/
def State.recallBegins (s : State) : State :=
  let s₁ : State := { s with governor := .recalling (s.now + sec s.policy.recallWindow) }
  let s₂ := s₁.raiseRecallBegins.loweringRecallBegins
  let s₃ := allSlots.foldl (fun t n => t.recallRecord n) s₂
  { s₃ with link := { s₃.link with zoneEnvs := [], recallTx := s₃.link.recallTx <|> some s₃.now } }

/-- A record still RECALLED at the end of the window becomes VACANT (R167). -/
def State.freeRecalled (n : Nat) (s : State) : State :=
  if (s.record n).state = .recalled then s.becomeVacant n else s

/-- The recall window expires (R167). -/
def State.recallEnds (s : State) : State :=
  let s₁ := allSlots.foldl (fun t n => t.freeRecalled n) s
  let s₂ := ({ s₁ with governor := .running } : State).raiseCause .recallDone
  s₂.grantEvaluation.loweringRunning

end Sys2Proof.Machine
end

