-- ==== Sys2Proof/Machine/Report.lean ====
section
/-! DEFINITION. A valid REPORT in the four blocks that use it (R5, R8 to R15, R32, R62 to R70, R74 to R76, R138, R142). -/

namespace Sys2Proof.Machine

/-- The last report a REPORT leaves, by the kind of the record (R5). -/
def reportOf (k : Kind) (f : ReportFields) (now : Nat) : LastReport :=
  match k, f.long with
  | .storage, some l => .storage l.output l.charge l.discharge l.chargeLimit now
  | _, _ => .inverter f.output f.available now

/-- The Unit Roster replaces the last report (R5). -/
def State.storeReport (n : Nat) (f : ReportFields) (s : State) : State :=
  let r := s.record n
  s.setRecord n { r with lastReport := some (reportOf r.kind f s.now) }

/-- The Unit Roster acts on the lease and the flags by the state of the record (R8, R10, R12, R14, R15, R16). -/
def State.reportFlags (n : Nat) (f : ReportFields) (s : State) : State :=
  let r := s.record n
  match r.state with
  | .addressed => s.renewLease n
  | .bound =>
    if f.fallback then s.enterLapsed n true
    else if f.dormant then s.enterDormant n
    else s.renewLease n
  | .dormant =>
    if f.fallback then s.enterLapsed n true
    else if f.dormant then s.renewLease n
    else s.enterBound n
  | .lapsed => if r.kind = .storage ∧ f.fallback = false then s.enterBound n else s
  | .vacant | .recalled | .retiring => s

/-- The REPORT makes the Roster send a claim: the first one of a LAPSED inverter with nothing staged (R14), or one that
wakes a DORMANT inverter (R12). -/
def reportClaims (r : UnitRecord) (f : ReportFields) : Bool :=
  r.kind = .inverter &&
    ((r.state = .lapsed && r.staged.isNone) || (r.state = .dormant && !f.fallback && !f.dormant))

/-- The staged envelope is acknowledged and becomes active, and a pending push lapses; a LAPSED record returns to BOUND
(R15, R63). -/
def State.acknowledge (n : Nat) (e : Envelope) (s : State) : State :=
  let r := s.record n
  let s₁ := (s.setRecord n { r with active := some e, staged := none }).lapsePush n
  if r.state = .lapsed then s₁.enterBound n else s₁

/-- The Envelope Stager reads the applied bank and ceiling (R62 to R65). -/
def State.readBank (n : Nat) (f : ReportFields) (s : State) : State :=
  let r := s.record n
  if r.kind = .inverter ∧ (r.state = .bound ∨ r.state = .lapsed) then
    match r.staged with
    | none => s
    | some e =>
      if f.bank = some e.bank then
        if f.ceiling = e.ceiling then s.acknowledge n e else (s.requestPush n).advanceAckMismatches n
      else s
  else s

/-- The clamp test is met (R67). It reads the record as it stands after the acknowledgement of the same REPORT, so that the
REPORT which acknowledges a reclaim and returns its record to BOUND is tested: DESIGN CHOICE, R67 does not say (log 31). -/
def State.clampTestMet (s : State) (n : Nat) (f : ReportFields) : Bool :=
  let r := s.record n
  match r.effCeiling with
  | none => false
  | some c =>
    r.boundInverter && decide (min f.available r.rating + permille r.rating s.policy.clampGap < c)

/-- The REPORT meets the clamp test, which is made after the Stager has acted on its applied bank and ceiling (R67). -/
def State.meetsClamp (s : State) (n : Nat) (f : ReportFields) : Bool := (s.readBank n f).clampTestMet n f

/-- The clamp level of a REPORT (R68). -/
def State.clampLevel (s : State) (n : Nat) (f : ReportFields) : Nat :=
  let r := s.record n
  min f.available r.rating + permille r.rating s.policy.clampMargin

/-- A ticket whose target is above the clamp level is cut, and evaluation runs (R68, R90). -/
def State.clampCut (n level : Nat) (s : State) : State :=
  match s.ticketOf n with
  | none => s
  | some k =>
    match s.ticket k with
    | none => s
    | some t => if level < t.target then (s.cutTicket k).grantEvaluation else s

/-- The clamp claim, where it lies below the staged ceiling, or below the active one with nothing staged (R68). Where a
cut has staged a ceiling at or below the clamp ceiling none is written, as R68 and R69 give; R70 then speaks of the clamp
ceiling as the one staged: DEDUCED (log 42). -/
def State.clampClaim (n level : Nat) (s : State) : State :=
  let r := s.record n
  let clamp := min (r.effCeiling.getD 0) level
  let below : Bool := match r.staged, r.active with
    | some e, _ => decide (clamp < e.ceiling)
    | none, some a => decide (clamp < a.ceiling)
    | none, none => false
  if below then s.stageClaim .stager n clamp (s.descentRate r) else s

/-- The clamp test and, where it is met, the clamp-down (R67, R68). -/
def State.clampDown (n : Nat) (f : ReportFields) (s : State) : State :=
  if s.clampTestMet n f then (s.clampCut n (s.clampLevel n f)).clampClaim n (s.clampLevel n f) else s

/-- The Envelope Stager reads a REPORT, then takes the claim the Roster sends on account of it (R62, log 17). That the
values of that claim are worked when it is taken, and not when the Roster acts on the flags, is a DESIGN CHOICE (log
17). The clamp test of a REPORT that has just returned a LAPSED record to BOUND is the model's choice (log 31). -/
def State.stagerReport (n : Nat) (f : ReportFields) (claims : Bool) (s : State) : State :=
  let read := (s.readBank n f).clampDown n f
  if claims then read.reportClaim n else read

/-- The Line Controller takes a REPORT: the part of S of an inverter (R138); the cover condition and the clip of the
share of a usable converter (R142, R150). -/
def State.lineReport (n : Nat) (f : ReportFields) (s : State) : State :=
  let r := s.record n
  match r.kind with
  | .inverter => s.setPart n (some f.output)
  | .storage => if r.usable then s.workCondition.clipCover n else s

/-- A valid REPORT in the four blocks, the Stager before the Raise Allocator or after it (R32, R76). One that meets the
clamp test makes no raise request in either order (R70). That the Line Controller reads it last, after the Roster has
acted on its flags, is a DESIGN CHOICE (log 37): the REPORT of a converter that leaves BOUND on it is not read as one of a
usable converter. -/
def State.takeReport (stagerFirst : Bool) (n : Nat) (f : ReportFields) (s : State) : State :=
  let claims := reportClaims (s.record n) f
  let s₁ := (s.storeReport n f).reportFlags n f
  let clamps := s₁.meetsClamp n f
  let s₂ :=
    if stagerFirst then (s₁.stagerReport n f claims).raiseReport clamps n f
    else (s₁.raiseReport clamps n f).stagerReport n f claims
  s₂.lineReport n f

/-- A valid REPORT, in the order a free value sets (log 5). -/
def State.reportEvent (n : Nat) (f : ReportFields) (s : State) : State :=
  ({ s with choices := s.choices + 1 } : State).takeReport (Config.stagerFirst s.choices) n f

end Sys2Proof.Machine
end

