-- ==== Sys2Proof/Machine/Link.lean ====
section
/-! DEFINITION. The Field Link Controller: the arbiter, the beginning of each transaction and its end (R28 to R52). -/

namespace Sys2Proof.Machine

/-! ### The arbiter (R51, R52) -/

/-- A pending transmission as the arbiter names it. -/
inductive TxRef where
  | poll (n : Nat)
  | assign (n : Nat)
  | refuse
  | release (n : Nat)
  | recall
  | zoneEnv (e : ZoneEnvTx)
  | cover (n : Nat)
  | joinWindow
  deriving DecidableEq, Repr

/-- A pending transmission with what the arbiter compares: class, entry time (of a ZONE ENVELOPE with the order of its
handing at one moment, R128, log 13), the rank of its kind in class 6, and its slot or zone number (R52). -/
structure Candidate where
  key : List Nat
  ref : TxRef
  deriving DecidableEq, Repr

/-- The lower key, place by place. -/
def keyBefore : List Nat → List Nat → Bool
  | [], _ => false
  | _ :: _, [] => false
  | a :: as, b :: bs => decide (a < b) || (a = b && keyBefore as bs)

/-- A push gives class 4 when the staged ceiling is below the active one or there is no active envelope, and class 5
otherwise (R51). -/
def pushClass (r : UnitRecord) : Nat :=
  match r.active, r.staged with
  | some a, some e => if e.ceiling < a.ceiling then 4 else 5
  | none, _ => 4
  | some _, none => 5

/-- The pending POLL of a slot: the class and the time of its best present reason (R51). -/
def State.pollCandidate (s : State) (n : Nat) : List Candidate :=
  let t := s.tx n
  match t.affirmDue, t.push, t.routine with
  | some x, _, _ => [⟨[2, x, 0, 0, n], .poll n⟩]
  | none, some x, _ => [⟨[pushClass (s.record n), x, 0, 0, n], .poll n⟩]
  | none, none, some x => [⟨[7, x, 0, 0, n], .poll n⟩]
  | none, none, none => []

/-- What is pending for one slot. -/
def State.slotCandidates (s : State) (n : Nat) : List Candidate :=
  let t := s.tx n
  (t.cover.map fun c => (⟨[1, c.entry, 0, 0, n], .cover n⟩ : Candidate)).toList ++ s.pollCandidate n ++
  (t.assign.map fun x => (⟨[6, x, 0, 0, n], .assign n⟩ : Candidate)).toList ++
  (t.release.map fun x => (⟨[6, x, 0, 2, n], .release n⟩ : Candidate)).toList

/-- The set of pending transmissions (R50). -/
def State.candidates (s : State) : List Candidate :=
  allSlots.flatMap s.slotCandidates ++
  (s.link.zoneEnvs.map fun e => (⟨[3, e.entry, e.order, 0, e.zone], .zoneEnv e⟩ : Candidate)) ++
  (s.link.refuse.map fun x => (⟨[6, x.2, 0, 1, 0], .refuse⟩ : Candidate)).toList ++
  (s.link.recallTx.map fun x => (⟨[6, x, 0, 3, 0], .recall⟩ : Candidate)).toList ++
  (s.link.joinWindow.map fun x => (⟨[8, x, 0, 0, 0], .joinWindow⟩ : Candidate)).toList

/-- The first candidate in the order of the arbiter. -/
def bestCandidate : List Candidate → Option Candidate
  | [] => none
  | c :: rest =>
    match bestCandidate rest with
    | none => some c
    | some d => if keyBefore d.key c.key then some d else some c

/-- The choice of the arbiter while the link is idle and no reset is taken (R29, R52). -/
def State.arbiterChoice (s : State) : Option TxRef :=
  match s.inReset, s.link.txn with
  | none, none => (bestCandidate s.candidates).map (·.ref)
  | _, _ => none

/-! ### Beginning a transaction -/

/-- A transaction begins with its frame, which takes its time (R28, R29, log 22). -/
def State.beginTxn (kind : TxnKind) (frame : List Byte) (s : State) : State :=
  { s with link := { s.link with txn := some { kind := kind, start := s.now, span := Config.frameTime frame.length, frame := frame } } }

/-- The envelope a POLL carries (R31). -/
def pollEnvelope (r : UnitRecord) : Option Envelope :=
  match r.state, r.kind with
  | .bound, .inverter => r.staged <|> r.active
  | .lapsed, .inverter => r.staged
  | _, _ => none

/-- A POLL begins: its reasons are cleared, its slot is served, and an envelope it carries renews the affirm deadline
(R31, R34, R46, R50). -/
def State.sendPoll (n : Nat) (s : State) : State :=
  let t := s.tx n
  let s₁ := s.setTx n { t with routine := none, push := none, affirmDue := none }
  let s₂ : State := { s₁ with link := { s₁.link with served := place s₁.link.served n true } }
  match pollEnvelope (s.record n) with
  | none => s₂.beginTxn (.poll n) (fieldFrame (n + 1) 0x01 [])
  | some e => (s₂.renewAffirm n).beginTxn (.poll n) (fieldFrame (n + 1) 0x01 (envelopeBytes e))

/-- The JOIN WINDOW begins (R35). -/
def State.sendJoinWindow (s : State) : State :=
  ({ s with link := { s.link with joinWindow := none } } : State).beginTxn .joinWindow (fieldFrame 0 0x02 [])

/-- The payload of an ASSIGN (R40): serial, slot, field address, Ta, and the fallback ceiling, which is the rating of an
inverter and 0 kW for a converter. -/
def State.assignPayload (s : State) (n : Nat) : List Byte :=
  let r := s.record n
  let fallback := match r.kind with | .inverter => r.rating | .storage => 0
  beBytes 6 r.serial.toNat ++ [byte n, byte (n + 1)] ++ beBytes 2 s.policy.ta ++ beBytes 2 fallback

/-- An ASSIGN begins, and the lease of an ADDRESSED, BOUND or DORMANT record is set (R7, R40). -/
def State.sendAssign (n : Nat) (s : State) : State :=
  let s₁ := s.setTx n { s.tx n with assign := none }
  let s₂ := match (s.record n).state with
    | .addressed | .bound | .dormant => s₁.renewLease n
    | .vacant | .lapsed | .recalled | .retiring => s₁
  s₂.beginTxn .noReply (fieldFrame 0 0x03 (s.assignPayload n))

/-- The REFUSE begins (R41). -/
def State.sendRefuse (s : State) : State :=
  match s.link.refuse with
  | none => s
  | some x =>
    ({ s with link := { s.link with refuse := none } } : State).beginTxn .noReply
      (fieldFrame 0 0x04 (beBytes 6 x.1.toNat))

/-- A RELEASE begins, and the release deadline is set (R16, R42). -/
def State.sendRelease (n : Nat) (s : State) : State :=
  let s₁ := s.setTx n { s.tx n with release := none }
  (s₁.setRecord n { s.record n with releaseDeadline := some (s.now + ms s.policy.releaseTimeout) }).beginTxn
    (.release n) (fieldFrame (n + 1) 0x05 [])

/-- The RECALL broadcast begins (R43). -/
def State.sendRecall (s : State) : State :=
  ({ s with link := { s.link with recallTx := none } } : State).beginTxn .noReply (fieldFrame 127 0x06 [])

/-- The slots of a ZONE ENVELOPE that get an entry: BOUND, with a staged envelope (R44). -/
def State.zoneEnvEntries (s : State) (e : ZoneEnvTx) : List (Nat × Envelope) :=
  e.slots.filterMap fun n =>
    if (s.record n).state = .bound then (s.record n).staged.map fun x => (n, x) else none

/-- An entry sent renews the affirm deadline of its slot and removes the affirm-due mark of its POLL (R44, R46, R47). -/
def State.renewByEntry (n : Nat) (s : State) : State :=
  (s.renewAffirm n).setTx n { s.tx n with affirmDue := none }

/-- A ZONE ENVELOPE begins; one left with no entry is dropped and not sent (R44). -/
def State.sendZoneEnv (e : ZoneEnvTx) (s : State) : State :=
  let s₁ : State := { s with link := { s.link with zoneEnvs := s.link.zoneEnvs.erase e } }
  match s.zoneEnvEntries e with
  | [] => s₁
  | entries =>
    (entries.foldl (fun t x => t.renewByEntry x.1) s₁).beginTxn .noReply
      (fieldFrame 127 0x07 (byte e.zone :: byte entries.length ::
        entries.flatMap fun x => byte x.1 :: envelopeBytes x.2))

/-- A COVER begins: the affirm deadline is renewed, and to a BOUND record the share is recorded as the last one sent
(R45, R46, R48, R146). -/
def State.sendCover (n : Nat) (s : State) : State :=
  match (s.tx n).cover with
  | none => s
  | some c =>
    let s₁ := (s.dropCover n).renewAffirm n
    let s₂ := if (s.record n).state = .bound then s₁.setLastShare n (some c.share) else s₁
    s₂.beginTxn .noReply (fieldFrame (n + 1) 0x08 (beInt 4 c.share))

/-! ### The end of a transaction -/

/-- The transaction ends and the link is idle (R29). -/
def State.endTxn (s : State) : State := { s with link := { s.link with txn := none } }

/-- The sweep number advances, the served set is emptied and a new sweep begins (R35). -/
def State.advanceSweep (s : State) : State :=
  { s with link := { s.link with sweep := (s.link.sweep + 1) % 8, served := Vector.replicate 64 false } }

/-- A transaction with a reply window ends without its reply: a poll miss changes nothing, a RELEASE leaves the
retirement to its deadline, a JOIN WINDOW closes the sweep (R30). -/
def State.endWithoutReply (k : TxnKind) (s : State) : State :=
  match k with
  | .joinWindow => s.endTxn.advanceSweep
  | .poll _ | .release _ | .noReply => s.endTxn

/-- The end of the sent frame, at which the reply window opens (R29). -/
def Txn.sent (x : Txn) : Nat := x.start + x.span

/-- The reply window closes 300 µs after the end of the sent frame (R29). -/
def Txn.closes (x : Txn) : Nat := x.sent + 300

/-- The end of a reply of so many bytes that begins as the reply window opens: the earliest one (R29, log 22). -/
def Txn.firstReplyEnd (x : Txn) (length : Nat) : Nat := x.sent + Config.frameTime length

/-- The end of a reply of so many bytes that begins as the reply window closes: the latest one (R29, log 22). -/
def Txn.lastReplyEnd (x : Txn) (length : Nat) : Nat := x.closes + Config.frameTime length

/-- The transaction in progress, where it has a reply window (R29). -/
def State.replyTxn (s : State) : Option Txn :=
  match s.link.txn with
  | none => none
  | some x => if x.kind = .noReply then none else some x

/-- The transaction in progress, where it has none (R29). -/
def State.noReplyTxn (s : State) : Option Txn :=
  match s.link.txn with
  | none => none
  | some x => if x.kind = .noReply then some x else none

/-- When a frame of so many bytes begun in the reply window of the transaction in progress has been received to its end,
which is over at the latest such end (R29). -/
def State.replyEnds (length : Nat) (s : State) : Option Nat :=
  match s.replyTxn with
  | none => none
  | some x => if s.now ≤ x.lastReplyEnd length then some (x.firstReplyEnd length) else none

/-- The transaction whose reply window is open or still to open ends without a reply (R30). -/
def State.endsUnanswered (s : State) : State :=
  match s.replyTxn with
  | none => s
  | some x => s.endWithoutReply x.kind

/-- The REPORT of the polled slot, taken where it is the expected reply (R30): from its address, valid, in the form of
its record's kind, from a record that is neither VACANT nor RECALLED (R5). -/
def State.expectedReport (s : State) (n : Nat) (addr : Byte) (payload : List Byte) : Option ReportFields :=
  let r := s.record n
  if addr.toNat ≠ n + 1 ∨ r.state = .vacant ∨ r.state = .recalled then none
  else
    match parseReport payload with
    | none => none
    | some f => if f.fits r.kind then some f else none

/-- A REPORT is received in a reply window: handed on where it is the expected reply, and the end of the transaction in
every case (R30, R32). -/
def State.receiveReport (addr : Byte) (payload : List Byte) (s : State) : State :=
  match s.replyTxn.map Txn.kind with
  | some (.poll n) =>
    match s.expectedReport n addr payload with
    | some f => s.endTxn.reportEvent n f
    | none => s.endsUnanswered
  | _ => s.endsUnanswered

/-- A JOIN is received in a reply window: handled at the end of the JOIN WINDOW, after which the sweep advances (R30, R35,
R36). -/
def State.receiveJoin (addr : Byte) (payload : List Byte) (s : State) : State :=
  match s.replyTxn.map Txn.kind with
  | some .joinWindow =>
    match (if addr = 0 then parseJoin payload else none) with
    | some f => (s.endTxn.joinUnit f).advanceSweep
    | none => s.endsUnanswered
  | _ => s.endsUnanswered

/-- A RELEASED is received in a reply window: in that of a RELEASE to its slot it completes the retirement of a RETIRING
record (R16, R30, R42). -/
def State.receiveReleased (addr : Byte) (payload : List Byte) (s : State) : State :=
  match s.replyTxn.map Txn.kind with
  | some (.release n) =>
    if addr.toNat = n + 1 ∧ payload = [] ∧ (s.record n).state = .retiring then s.endTxn.completeRetirement n
    else s.endsUnanswered
  | _ => s.endsUnanswered

/-- A valid frame is the expected reply of the transaction in progress (R30). -/
def State.isExpected (s : State) (addr : Byte) (k : UnitFrame) (payload : List Byte) : Bool :=
  match s.replyTxn.map Txn.kind, k with
  | some (.poll n), .report => (s.expectedReport n addr payload).isSome
  | some .joinWindow, .join => addr = 0 && (parseJoin payload).isSome
  | some (.release n), .released => addr.toNat = n + 1 && (s.record n).state = .retiring
  | _, _ => false

/-- The bytes of a received frame are those of the expected reply (R28, R30). -/
def State.expects (s : State) (bytes : List Byte) : Bool :=
  match parseFieldFrame bytes with
  | none => false
  | some x => s.isExpected x.1 x.2.1 x.2.2

/-- When a received frame that is discarded ends its transaction: a frame begun in the reply window that fails its check or
is not the expected reply (R28 to R30). A frame received while the frame of the part is being sent has begun outside the
window (log 41), and one that is the expected reply is not discarded (log 6). -/
def State.discardEnds (bytes : List Byte) (s : State) : Option Nat :=
  if s.expects bytes || s.replyTxn.any fun x => decide (s.now < x.sent) then none else s.replyEnds bytes.length

/-! ### Affirm-due points (R47, R48) -/

/-- The affirm-due point of a slot is reached: an affirm-due POLL of an inverter is marked or queued, an affirm-due
COVER of a converter is queued unless a COVER is pending. -/
def State.affirmDueReached (n : Nat) (s : State) : State :=
  let r := s.record n
  let s₁ := s.setRecord n { r with affirm := r.affirm.map fun a => { a with due := none } }
  match r.kind with
  | .inverter => s₁.requestAffirmPoll n
  | .storage => s₁.queueAffirmCover n

end Sys2Proof.Machine
end

