-- ==== Sys2Proof/Machine/Shade.lean ====
section
/-! DEFINITION. The Shade Tracker: debounced changes, zone states and the notices they give (R101 to R115). How a notice
is taken stands in Notices.lean. -/

namespace Sys2Proof.Machine

/-- The notice goes to the Raise Allocator as well as to the Lowering Allocator (R113, the table). -/
def Notice.forRaise : Notice → Bool
  | .leftClear .. | .returnedClear .. => true
  | .arrivalChanged .. | .enteredShaded _ => false

/-- The Tracker gives its notices: each stands with its allocator, behind those given before, until that allocator takes it
(R113, R114). -/
def State.giveNotices (xs : List Notice) (s : State) : State :=
  s.setNotices (s.raise.notices ++ xs.filter Notice.forRaise) (s.lower.notices ++ xs)

/-- A source takes its place among the sources, which stand in ascending sensor order, and replaces one of the same
sensor (R107, R108). -/
def insertSource (x : Source) : List Source → List Source
  | [] => [x]
  | y :: rest =>
    if x.sensor < y.sensor then x :: y :: rest
    else if x.sensor = y.sensor then x :: rest
    else y :: insertSource x rest

/-- The earliest arrival among sources (R109). -/
def earliestArrival : List Source → Option Nat
  | [] => none
  | x :: rest =>
    match earliestArrival rest with
    | none => some x.arrival
    | some a => some (min x.arrival a)

/-- The notice of an arrival time worked afresh: none where the earliest arrival is as it was (R109). -/
def arrivalNotice (z : Nat) (old new : Option Nat) : List Notice :=
  match new with
  | none => []
  | some a => if old = some a then [] else [.arrivalChanged z a]

/-- A sensor shades: its action on one zone of its list at time `t`, with the notice given (R108). -/
def Zone.shadedBy (z sensor lead t : Nat) (x : Zone) : Zone × List Notice :=
  let source : Source := { sensor := sensor, arrival := t + sec lead, lead := lead, cleared := false }
  match x.state with
  | .clear =>
    ({ x with state := .forecast, sources := [source], arrival := some source.arrival },
     [.leftClear z source.arrival])
  | .forecast =>
    let sources := insertSource source x.sources
    let arrival := earliestArrival sources
    ({ x with sources := sources, arrival := arrival }, arrivalNotice z x.arrival arrival)
  | .shaded => ({ x with sources := insertSource source x.sources, clearTime := none }, [])

/-- A sensor clears: its action on one zone at time `t`, with the notice given (R110). -/
def Zone.litBy (z sensor t : Nat) (x : Zone) : Zone × List Notice :=
  match x.sources.find? fun y => y.sensor = sensor with
  | none => (x, [])
  | some source =>
    match x.state with
    | .clear => (x, [])
    | .forecast =>
      let sources := x.sources.filter fun y => y.sensor ≠ sensor
      match earliestArrival sources with
      | none => ({ x with state := .clear, sources := [], arrival := none }, [.returnedClear z true])
      | some a => ({ x with sources := sources, arrival := some a }, arrivalNotice z x.arrival (some a))
    | .shaded =>
      let sources := x.sources.map fun y => if y.sensor = sensor then { y with cleared := true } else y
      let clearTime := if sources.all (·.cleared) then some (t + sec source.lead) else x.clearTime
      ({ x with sources := sources, clearTime := clearTime }, [])

/-- A debounced change to shaded: the Tracker acts on every zone of the sensor's list and gathers the notices
(R103, R108). That the notices of several zones are given in the order of the list is a DESIGN CHOICE (log 39). -/
def State.trackShaded (sensor : Nat) (s : State) : State × List Notice :=
  (look s.shade.map sensor []).foldl (init := (s, [])) fun acc e =>
    let changed := (acc.1.zone e.zone).shadedBy e.zone sensor e.lead s.now
    (acc.1.setZone e.zone changed.1, acc.2 ++ changed.2)

/-- A debounced change to lit: the Tracker acts on every zone in which the sensor is a source (R110). That
the notices of several zones are given in ascending order of the zones is a DESIGN CHOICE (log 39). -/
def State.trackLit (sensor : Nat) (s : State) : State × List Notice :=
  allSixteen.foldl (init := (s, [])) fun acc z =>
    let changed := (acc.1.zone z).litBy z sensor s.now
    (acc.1.setZone z changed.1, acc.2 ++ changed.2)

/-- A debounced change of a sensor, taken whole, and the notices it gives (R103). -/
def State.debouncedChange (sensor : Nat) (shaded : Bool) (s : State) : State :=
  let tracked := if shaded then s.trackShaded sensor else s.trackLit sensor
  tracked.1.giveNotices tracked.2

/-- A sensor line takes a level: the timer starts with it as its candidate where it differs from the filtered level,
and stops where it does not (R102). -/
def State.sensorLevel (i : Nat) (level : Bool) (s : State) : State :=
  let x := s.sensor i
  if x.line = level then s
  else if level = x.filtered then s.setSensor i { x with line := level, timer := none }
  else s.setSensor i { x with line := level, timer := some (level, s.now + ms s.policy.debounce) }

/-- A zone enters CLEAR: its sources, arrival time and clear time are gone (R112, R115). -/
def Zone.cleared (x : Zone) : Zone :=
  { x with state := .clear, sources := [], arrival := none, clearTime := none }

/-- A zone out of CLEAR returns to CLEAR and notice is given (R112, R115). -/
def State.returnToClear (z : Nat) (s : State) : State :=
  (s.setZone z (s.zone z).cleared).giveNotices [.returnedClear z false]

/-- A FORECAST zone enters SHADED with its arrival time fixed, and notice is given (R109, R111). -/
def State.zoneArrives (z : Nat) (s : State) : State :=
  (s.setZone z { s.zone z with state := .shaded, clearTime := none }).giveNotices [.enteredShaded z]

/-- The release mark of SET ZONE (R115). -/
def State.releaseZone (z : Nat) (s : State) : State :=
  match (s.zone z).state with
  | .clear => s
  | .forecast | .shaded => s.returnToClear z

end Sys2Proof.Machine
end

