-- ==== Sys2Proof/Machine/Notices.lean ====
section
/-! DEFINITION. The notices of the Shade Tracker as events of the two allocators (R88, R113, R114, R121 to R124, R130), and the
passing of time, before which they are taken. -/

namespace Sys2Proof.Machine

/-- The Raise Allocator acts on a notice: nothing at once on a return to CLEAR (R88). -/
def State.raiseTakes (x : Notice) (s : State) : State :=
  match x with
  | .leftClear z _ => s.raiseZoneLeftClear z
  | .returnedClear .. | .arrivalChanged .. | .enteredShaded _ => s

/-- The Lowering Allocator acts on a notice; a cancelled forecast is treated as any return to CLEAR (R121, R122, R124,
R130). -/
def State.lowerTakes (x : Notice) (s : State) : State :=
  match x with
  | .leftClear z a => s.loweringEnteredForecast z a
  | .arrivalChanged z a => s.loweringArrivalChanged z a
  | .enteredShaded z => s.loweringEnteredShaded z
  | .returnedClear z _ => s.loweringReturnedClear z

/-- The Raise Allocator takes the first notice given to it: an event of its own (R113). -/
def State.takeRaiseNotice (s : State) : State :=
  match s.raise.notices with
  | [] => s
  | x :: rest => (s.setNotices rest s.lower.notices).raiseTakes x

/-- The Lowering Allocator takes the first notice given to it: an event of its own (R113). -/
def State.takeLowerNotice (s : State) : State :=
  match s.lower.notices with
  | [] => s
  | x :: rest => (s.setNotices s.raise.notices rest).lowerTakes x

/-- Every notice given has been taken, in the order given; the Raise Allocator takes its own first (log 14). -/
def State.takeNotices (s : State) : State :=
  let taken := s.raise.notices.foldl (fun t _ => t.takeRaiseNotice) s
  taken.lower.notices.foldl (fun t _ => t.takeLowerNotice) taken

/-- The state in which time passes to a deadline: what lies ahead is reached only when every notice given has been taken,
DESIGN CHOICE (log 36). -/
def State.upTo (d : Nat) (s : State) : State := if d ≤ s.now then s else s.takeNotices

/-- A timer, whose deadline a state gives while it runs, expires: time reaches the deadline and the event acts (R1, log 2).
A timer that stops when the notices are taken does not expire. -/
def State.expire (deadline : State → Option Nat) (act : State → State) (s : State) : Option State :=
  match deadline s with
  | none => none
  | some d => (deadline (s.upTo d)).map fun e => act ((s.upTo d).reach e)

end Sys2Proof.Machine
end

