-- ==== Sys2Proof/Machine/Receive.lean ====
section
/-! DEFINITION. The meanings of the rows in which a transaction ends (R28 to R32, R36, R42). -/

namespace Sys2Proof.Machine

/-- When the transaction in progress ends with the last byte of its frame, where it has no reply window (R29). -/
def State.frameEnds (s : State) : Option Nat := s.noReplyTxn.map Txn.sent

/-- When the reply window of the transaction in progress closes (R29). -/
def State.windowDue (s : State) : Option Nat := s.replyTxn.map Txn.closes

/-- The last byte of a frame without reply has been sent: its transaction ends (R29); time is then at least the end of the
frame (log 2, log 22). -/
def execTransactionEnd (s : State) : Host.Outcome State Fault Refusal :=
  s.event fun t => t.expire State.frameEnds State.endTxn

/-- The reply window closes with no reply begun (R29, R30); time is then at least 300 µs after the end of the sent frame
(log 2, log 22). -/
def execReplyWindowClose (s : State) : Host.Outcome State Fault Refusal :=
  s.event fun t => t.expire State.windowDue State.endsUnanswered

/-- A received frame is discarded: one begun in the reply window ends its transaction when it has been received to its end,
as if no reply had come, and any other changes nothing (R28 to R30, log 41). -/
def execFieldFrameDiscarded (bytes : List Byte) (s : State) : Host.Outcome State Fault Refusal :=
  s.event fun t => t.expire (State.discardEnds bytes) State.endsUnanswered

/-- The bytes of a frame with this payload: address, kind, length and CRC-16 beside it (R28). -/
def frameLength (payload : List Byte) : Nat := payload.length + 5

/-- A REPORT begun in a reply window is received to its end (R29, R30, R32, log 41). -/
def execReport (addr : Byte) (payload : List Byte) (s : State) : Host.Outcome State Fault Refusal :=
  s.event fun t => t.expire (State.replyEnds (frameLength payload)) (State.receiveReport addr payload)

/-- A JOIN begun in a reply window is received to its end (R29, R30, R36, log 41). -/
def execJoin (addr : Byte) (payload : List Byte) (s : State) : Host.Outcome State Fault Refusal :=
  s.event fun t => t.expire (State.replyEnds (frameLength payload)) (State.receiveJoin addr payload)

/-- A RELEASED begun in a reply window is received to its end (R16, R29, R30, log 41). -/
def execReleased (addr : Byte) (payload : List Byte) (s : State) : Host.Outcome State Fault Refusal :=
  s.event fun t => t.expire (State.replyEnds (frameLength payload)) (State.receiveReleased addr payload)

end Sys2Proof.Machine
end

