-- ==== Sys2Proof/Machine/Policy.lean ====
section
/-! DEFINITION. SET POLICY: the settings by their part codes, their ranges, and the notices of a change (R187, R188, spec/10
10.3). -/

namespace Sys2Proof.Machine

/-- The part codes of SET POLICY in order. -/
def policyCodes : List Nat := (List.range 22).map (· + 1)

/-- The value of a setting by its part code. -/
def Policy.get (p : Policy) : Nat → Nat
  | 0x01 => p.nr | 0x02 => p.leaseInterval | 0x03 => p.bindTimeout | 0x04 => p.releaseTimeout
  | 0x05 => p.lapsesThr | 0x06 => p.slowThr | 0x07 => p.ackThr | 0x08 => p.ta
  | 0x09 => p.raiseThr | 0x0A => p.ticketSpan | 0x0B => p.ticketGrace | 0x0C => p.minClaim
  | 0x0D => p.debounce | 0x0E => p.startMargin | 0x0F => p.early.toNat | 0x10 => p.lineStep
  | 0x11 => p.deadband | 0x12 => p.caution | 0x13 => p.reserve | 0x14 => p.recallWindow
  | 0x15 => p.clampGap | 0x16 => p.clampMargin | _ => 0

/-- A setting written by its part code. -/
def Policy.set (p : Policy) (code v : Nat) : Policy :=
  match code with
  | 0x01 => { p with nr := v } | 0x02 => { p with leaseInterval := v } | 0x03 => { p with bindTimeout := v }
  | 0x04 => { p with releaseTimeout := v } | 0x05 => { p with lapsesThr := v } | 0x06 => { p with slowThr := v }
  | 0x07 => { p with ackThr := v } | 0x08 => { p with ta := v } | 0x09 => { p with raiseThr := v }
  | 0x0A => { p with ticketSpan := v } | 0x0B => { p with ticketGrace := v } | 0x0C => { p with minClaim := v }
  | 0x0D => { p with debounce := v } | 0x0E => { p with startMargin := v } | 0x0F => { p with early := v = 1 }
  | 0x10 => { p with lineStep := v } | 0x11 => { p with deadband := v } | 0x12 => { p with caution := v }
  | 0x13 => { p with reserve := v } | 0x14 => { p with recallWindow := v } | 0x15 => { p with clampGap := v }
  | 0x16 => { p with clampMargin := v } | _ => p

/-- The range of each setting (spec/09 9.5). -/
def policyInRange (code v : Nat) : Bool :=
  match code with
  | 0x01 => v ≤ 2
  | 0x02 => 500 ≤ v && v ≤ 30000
  | 0x03 => 5 ≤ v && v ≤ 600
  | 0x04 => 500 ≤ v && v ≤ 10000
  | 0x05 | 0x06 | 0x07 => v ≤ 255
  | 0x08 => 200 ≤ v && v ≤ 10000
  | 0x09 => v ≤ 255
  | 0x0A => 10 ≤ v && v ≤ 600
  | 0x0B => v ≤ 60
  | 0x0C => 1 ≤ v && v ≤ 10000
  | 0x0D => 100 ≤ v && v ≤ 5000
  | 0x0E => v ≤ 60
  | 0x0F => v ≤ 1
  | 0x10 => 100 ≤ v && v ≤ 1000 && v % 100 = 0
  | 0x11 => v ≤ 65535
  | 0x12 | 0x13 => v ≤ 1000
  | 0x14 => 5 ≤ v && v ≤ 300
  | 0x15 | 0x16 => v ≤ 1000
  | _ => false

/-- A part of SET POLICY as its code and its value. -/
def policyPart (p : Part) : Nat × Nat := (p.1.toNat, beNat p.2)

/-- The settings after a request's parts are written together (R187). -/
def Policy.write (p : Policy) (parts : List Part) : Policy :=
  parts.foldl (fun q x => q.set (policyPart x).1 (policyPart x).2) p

/-- A clamp part is carried (R187, check 1). -/
def carriesClamp (parts : List Part) : Bool := parts.any fun p => p.1 = 0x15 || p.1 = 0x16

/-- Every value carried lies in its range (R187, check 2). -/
def partsInRange (parts : List Part) : Bool := parts.all fun p => policyInRange (policyPart p).1 (policyPart p).2

/-- Every slot that changes kind with the reserved slot count is VACANT (R188). -/
def State.kindChangeOk (s : State) (newNr : Nat) : Bool :=
  allSlots.all fun n => slotKind s.policy.nr n = slotKind newNr n || (s.record n).state = .vacant

/-- A changed minimum claim rate runs grant evaluation and claim evaluation (R99, R134). -/
def State.noticeMinClaim (old : Policy) (s : State) : State :=
  if s.policy.minClaim = old.minClaim then s else s.grantEvaluation.claimEvaluation

/-- A changed caution level works the cover condition afresh (R156). -/
def State.noticeCaution (old : Policy) (s : State) : State :=
  if s.policy.caution = old.caution then s else s.workCondition

/-- A changed reserve floor clips the share of each usable converter (R142, R156). -/
def State.noticeReserve (old : Policy) (s : State) : State :=
  if s.policy.reserve = old.reserve then s else s.usableSlots.foldl (fun t n => t.clipCover n) s

/-- Early lowering turned on while the cover condition is not FULL makes zones in TIMING request (R123). -/
def State.noticeEarly (old : Policy) (s : State) : State :=
  if s.policy.early && !old.early && s.line.condition ≠ .full then s.timingZonesRequest else s

/-- The settings are written and the owning blocks given notice (R187, log 23). -/
def State.applyPolicy (p : Policy) (s : State) : State :=
  let old := s.policy
  ((((({ s with policy := p } : State).noticeMinClaim old).noticeCaution old).noticeReserve old).noticeEarly old)

/-- The answer to SET POLICY: every setting as a part, in code order (R187). -/
def Policy.answer (p : Policy) : List Byte :=
  policyCodes.flatMap fun code => byte code :: beBytes ((policyWidth (byte code)).getD 0) (p.get code)

end Sys2Proof.Machine
end

