-- ==== Sys2Proof/Machine/Port.lean ====
section
/-! DEFINITION. The frames of the Supervisor Port: the receiver, the execution, the pending response (R173 to R181). -/

namespace Sys2Proof.Machine

/-- What the execution of a request leaves: a response, no new response (NOP, R180), or the reset a RESTART took (R190). -/
inductive Reply where
  | answer (r : Response)
  | silent
  | restarted
  deriving DecidableEq, Repr

/-- An answer without payload. -/
def Reply.status (x : Status) : Reply := .answer { status := x, payload := [] }

/-- An answer DONE with a payload. -/
def Reply.done (payload : List Byte) : Reply := .answer { status := .done, payload := payload }

/-- The state of the port replaced. -/
def State.setPort (p : Port) (s : State) : State := { s with port := p }

/-- Chip select rises and the receiver returns to idle (R173). -/
def State.portIdle (s : State) : State := s.setPort { s.port with csLow := false, receiver := .idle }

/-- An execution begins at the rise of chip select with the response it will make pending (R177). -/
def State.beginExecution (r : Option Response) (s : State) : State :=
  s.setPort { s.port with execution := some { response := r, start := s.now } }

/-- The rise of chip select begins the execution of a request by its own rule (R177); a RESTART leaves the reset it took. -/
def State.execute (body : State → State × Reply) (s : State) : State :=
  let t := body s.portIdle
  match t.2 with
  | .answer r => t.1.beginExecution (some r)
  | .silent => t.1.beginExecution none
  | .restarted => t.1

/-- A frame that fails its check: CHECK ERROR will become pending and FRAME ERROR is raised (R174). -/
def State.frameFails (s : State) : State :=
  (s.portIdle.raiseCause .frameError).beginExecution (some { status := .checkError, payload := [] })

/-- A code that names no request: UNKNOWN will become pending (R175). -/
def State.codeUnknown (s : State) : State :=
  s.portIdle.beginExecution (some { status := .unknown, payload := [] })

/-- What becomes of a frame whose chip select rises. -/
inductive FrameFate where
  /-- The frame is discarded with no effect: a reset is taken, or it is a NOT READY frame, an abandoned one, or the
  period after a reset (R178, R179, R181). -/
  | discarded
  /-- The frame is checked and executed (R174, R177). -/
  | checked
  /-- The bits already clocked in are not those of this frame: the event cannot happen (log 7). -/
  | mismatch
  deriving DecidableEq, Repr

/-- One run of bits begins with the other, whichever is longer. -/
def bitsAgree : List Bool → List Bool → Bool
  | [], _ => true
  | _, [] => true
  | a :: as, b :: bs => a = b && bitsAgree as bs

/-- The bits clocked in so far can be those of a frame of these bytes: one begins with the other, and where no fill may
follow the bytes, the bits hold no whole byte beyond them (R173, log 7). -/
def bitsFit (fill : Bool) (bitsIn : List Bool) (bytes : List Byte) : Bool :=
  bitsAgree bitsIn (bytesBits bytes) && (fill || decide (bitsIn.length < 8 * (bytes.length + 1)))

/-- What becomes of a frame whose bytes are given and whose chip select now rises (log 7). The bytes are those of its
request, behind which fill may follow, or all the bytes of the frame. With the receiver idle the command stands for the
whole frame, from the fall of chip select to its rise. -/
def State.frameFate (fill : Bool) (bytes : List Byte) (s : State) : FrameFate :=
  match s.inReset with
  | some _ => .discarded
  | none =>
    match s.port.receiver with
    | .idle => if s.port.execution.isSome then .discarded else .checked
    | .abandoned => .discarded
    | .waitHigh => .discarded
    | .frame f =>
      if f.ready = false then .discarded
      else if bitsFit fill f.bitsIn bytes then .checked
      else .mismatch

/-- A frame, given by its bytes, ends; `act` is taken where it is checked. -/
def State.endFrame (fill : Bool) (bytes : List Byte) (act : State → State) (s : State) : State :=
  match s.frameFate fill bytes with
  | .discarded => s.portIdle
  | .mismatch => s
  | .checked => (act s).settle

/-- A frame that carries a request and passes its check ends (R173 to R177). A payload above 250 bytes fails the check
(R174). -/
def State.requestFrame (code : Byte) (payload : List Byte) (body : List Byte → State → State × Reply) (s : State) :
    State :=
  s.endFrame true (requestBytes code payload) fun t =>
    if 250 < payload.length then t.frameFails else t.execute (body payload)

/-- The execution completes: its response becomes the pending response; NOP leaves the pending one (R177, R180). -/
def State.completeExecution (e : Execution) (s : State) : State :=
  s.setPort { s.port with execution := none, pending := e.response.getD s.port.pending }

/-- Chip select falls: outside a reset a frame begins, with the pending response latched, or NOT READY while an
execution is in progress (R176, R178). -/
def State.portFall (s : State) : State :=
  if s.port.csLow then s
  else
    match s.inReset with
    | some _ => s.setPort { s.port with csLow := true }
    | none =>
      let ready := s.port.execution.isNone
      let out := if ready then s.port.pending.bytes else Response.bytes { status := .notReady, payload := [] }
      s.setPort { s.port with
        csLow := true
        receiver := .frame { ready := ready, bitsIn := [], out := out, shifted := 0, lastEdge := s.now } }

/-- A clock edge: on the rising edge a bit is taken in, on the falling edge the next bit is put out; the 2 ms count
starts again (R173, R179). Outside a frame only the level of the clock pin changes. -/
def State.portEdge (rising dataIn : Bool) (s : State) : State :=
  if s.port.sck = rising then s
  else
    let receiver := match s.port.receiver with
      | .frame f =>
        .frame (if rising then { f with bitsIn := f.bitsIn ++ [dataIn], lastEdge := s.now }
                else { f with shifted := f.shifted + 1, lastEdge := s.now })
      | r => r
    s.setPort { s.port with sck := rising, receiver := receiver }

/-- A frame stalls for 2 ms: it is abandoned, FRAME TIMEOUT becomes the pending response at once and FRAME ERROR is
raised; an execution that refused the frame has completed by then (R179). A low period of 2 ms in which no whole byte has
been clocked is abandoned like any other: R179 counts from the fall of chip select, while R173 says that such a period is
no frame and changes nothing; that R179 is followed is the model's reading (log 40). -/
def State.portTimeout (s : State) : State :=
  (s.setPort { s.port with
    receiver := .abandoned, execution := none,
    pending := { status := .frameTimeout, payload := [] } }).raiseCause .frameError

/-- The bit the port puts out: the bit of the latched response at the place reached, fill of 0x00 beyond it and in an
abandoned frame (R173, R176, R179, R193). Outside a frame, chip select low after a reset included (R181), the level is
given nowhere; 0 is a DESIGN CHOICE (log 35). -/
def State.dataOut (s : State) : Bool :=
  match s.port.receiver with
  | .frame f => ((bytesBits f.out)[f.shifted]?).getD false
  | .idle | .abandoned | .waitHigh => false

end Sys2Proof.Machine
end

