-- ==== Sys2Proof/Machine/Reset.lean ====
section
/-! DEFINITION. The three kinds of reset, their beginning and their end (R27, R33, R54, R71, R72, R100, R101, R118, R136,
R158, R169 to R172, R181). -/

namespace Sys2Proof.Machine

/-- The lock and the locked values survive a reset of a kind: the lock was set and it is not a power-on reset (R170). -/
def State.keepsLocked (kind : ResetKind) (s : State) : Bool := s.port.lock && kind ≠ .powerOn

/-- The IDENTIFY answer as the state stands (R191). -/
def State.identifyAnswer (s : State) : List Byte :=
  identifyPayload s.lastReset.code s.port.lock.toNat s.policy.nr s.governor.code s.secondsSinceReset

/-- A reset of a kind begins (R169): all work in flight ends and no timer runs; the lock and the locked values are kept or
go to their defaults (R170); every other block is already put at its reset values (log 11); the pins keep their levels. -/
def State.beginReset (kind : ResetKind) (s : State) : State :=
  let keep := s.keepsLocked kind
  { s with
    inReset := some kind
    policy := { Policy.default with
      clampGap := if keep then s.policy.clampGap else Policy.default.clampGap
      clampMargin := if keep then s.policy.clampMargin else Policy.default.clampMargin }
    records := Vector.replicate 64 UnitRecord.vacant
    governor := .recalling s.now
    profiles := if keep then s.profiles else defaultProfiles
    link := Link.empty
    raise := RaiseAlloc.cleared s.raise.holdLine
    shade :=
      { sensors := tabulate 16 fun i => { line := (s.sensor i).line, filtered := false, timer := none },
        map := Vector.replicate 16 [], zones := Vector.replicate 16 Zone.initial }
    lower := Lower.initial
    line := LineCtl.cleared (if keep then s.line.lup else 2000) (if keep then s.line.ldown else 2000) none
    port := { s.port with
      receiver := .idle, execution := none, causes := 0, mask := 0xFFF#12, attn := false, lock := keep } }

/-- A sensor line at the end of a reset: filtered level lit, and a running debounce timer where the line is low (R101). -/
def Sensor.atStart (x : Sensor) (expiry : Nat) : Sensor :=
  { x with filtered := false, timer := if x.line then some (true, expiry) else none }

/-- Start-up from the reset values (R172): the HOLD level is taken at once (R92), the debounce timers of dark lines and the
line step timer start (R101, R139), a recall begins over the empty table (R160), and the reset report becomes pending
(R181); with chip select low the port waits for it to rise. -/
def State.startUp (kind : ResetKind) (s : State) : State :=
  let s₁ : State := { s with
    inReset := none
    lastReset := kind
    resetAt := s.now
    shade := { s.shade with
      sensors := tabulate 16 fun i => (s.sensor i).atStart (s.now + ms s.policy.debounce) }
    line := { s.line with timer := some (s.now + ms s.policy.lineStep) }
    port := { s.port with receiver := if s.port.csLow then .waitHigh else .idle } }
  let s₂ := s₁.recallBegins
  (s₂.setPort { s₂.port with pending := { status := .done, payload := s₂.identifyAnswer } }).settle

/-- A reset of a kind ends: every block takes its reset values and start-up runs (R169, R172). A RESTART reset ends as it
begins, so that this is the whole of it (R190). -/
def State.endReset (kind : ResetKind) (s : State) : State := (s.beginReset kind).startUp kind

end Sys2Proof.Machine
end

