-- ==== Sys2Proof/Machine/Requests.lean ====
section
/-! DEFINITION. What each supervisor request does and answers: the form of its payload first (R175, R193), then its own
rule. -/

namespace Sys2Proof.Machine

/-- A request refused with a status changes nothing (spec/09 9.3). -/
def State.refuseWith (x : Status) (s : State) : State × Reply := (s, .status x)

/-! ### Requests of the port (spec/09) -/

/-- NOP (R180). -/
def bodyNop (payload : List Byte) (s : State) : State × Reply :=
  match emptyForm payload with
  | none => s.refuseWith .range
  | some _ => (s, .silent)

/-- The payload of STATUS and PEEK: the causes and the mask (R184, R185). -/
def State.causesPayload (s : State) : List Byte := flagBytes s.port.causes ++ flagBytes s.port.mask

/-- STATUS: the response holds the causes as they stand and the same event clears them (R184). -/
def bodyStatus (payload : List Byte) (s : State) : State × Reply :=
  match emptyForm payload with
  | none => s.refuseWith .range
  | some _ => (s.setPort (s.port.withFlags 0 s.port.mask), .done s.causesPayload)

/-- PEEK (R185). -/
def bodyPeek (payload : List Byte) (s : State) : State × Reply :=
  match emptyForm payload with
  | none => s.refuseWith .range
  | some _ => (s, .done s.causesPayload)

/-- SET MASK (R186). -/
def bodySetMask (payload : List Byte) (s : State) : State × Reply :=
  match maskForm payload with
  | none => s.refuseWith .range
  | some m =>
    let t := s.setPort (s.port.withFlags s.port.causes (m.getD s.port.mask))
    (t, .done (flagBytes t.port.mask ++ flagBytes t.port.causes))

/-- SET POLICY (R187, R188). -/
def bodySetPolicy (payload : List Byte) (s : State) : State × Reply :=
  match policyForm payload with
  | none => s.refuseWith .range
  | some parts =>
    if s.port.lock && carriesClamp parts then s.refuseWith .locked
    else if partsInRange parts = false then s.refuseWith .range
    else
      let p := s.policy.write parts
      if s.kindChangeOk p.nr = false then s.refuseWith .wrongState
      else (s.applyPolicy p, .done p.answer)

/-- The locked values as LOCK answers them (R189). -/
def State.lockPayload (s : State) : List Byte :=
  boolByte s.port.lock :: (beBytes 4 s.line.lup ++ beBytes 4 s.line.ldown ++
    s.profiles.toList.flatMap (fun p => [byte p.up, byte p.down]) ++
    beBytes 2 s.policy.clampGap ++ beBytes 2 s.policy.clampMargin)

/-- LOCK (R189). -/
def bodyLock (payload : List Byte) (s : State) : State × Reply :=
  match emptyForm payload with
  | none => s.refuseWith .range
  | some _ =>
    let t := s.setPort { s.port with lock := true }
    (t, .done t.lockPayload)

/-- RESTART (R190). -/
def bodyRestart (payload : List Byte) (s : State) : State × Reply :=
  match emptyForm payload with
  | none => s.refuseWith .range
  | some _ => (s.endReset .restart, .restarted)

/-- IDENTIFY (R191). -/
def bodyIdentify (payload : List Byte) (s : State) : State × Reply :=
  match emptyForm payload with
  | none => s.refuseWith .range
  | some _ => (s, .done s.identifyAnswer)

/-! ### Requests of the Unit Roster (spec/01) -/

/-- An envelope in a record: bank, ceiling and rate, zero where absent. -/
def optEnvelopeBytes : Option Envelope → List Byte
  | none => [0, 0, 0, 0, 0]
  | some e => envelopeBytes e

/-- A number with one bit for each mark, the first mark being bit 0. -/
def markBits (marks : List Bool) : Nat := marks.foldr (fun b n => b.toNat + 2 * n) 0

/-- The record is held (R18): hold is effective and it is an INVERTER record whose hold-exempt flag is present and no. -/
def State.held (s : State) (r : UnitRecord) : Bool :=
  s.raise.effHold && r.kind = .inverter &&
    match r.binding with
    | some b => !b.exempt
    | none => false

/-- The report fields of the LOOKUP record: output and available, the long-form values, and the age. -/
def reportBytes (now : Nat) : Option LastReport → List Byte
  | none => beBytes 16 0
  | some (.inverter o a t) => beBytes 2 o ++ beBytes 2 a ++ beBytes 8 0 ++ beSat 4 (msSince now t)
  | some (.storage o c d l t) =>
    beBytes 4 0 ++ beInt 2 o ++ beBytes 2 c ++ beBytes 2 d ++ beBytes 2 l ++ beSat 4 (msSince now t)

/-- The last report holds long-form values. -/
def isLong : Option LastReport → Bool
  | some (.storage ..) => true
  | _ => false

/-- The LOOKUP record of a slot: 65 bytes (R18, spec/10 10.2). -/
def State.lookupRecord (s : State) (n : Nat) : List Byte :=
  let r := s.record n
  let here : Bool := r.state ≠ .vacant
  let kind := if here then r.kind else slotKind s.policy.nr n
  let eff := if r.kind = .inverter then r.effCeiling else none
  let ticket := s.ticketOf n
  let presence := markBits [here, r.binding.isSome, r.lastReport.isSome, isLong r.lastReport, r.active.isSome,
    r.staged.isSome, eff.isSome, ticket.isSome]
  let binding := r.binding.getD { zone := 0, profile := 0, exempt := false }
  [byte n, byte r.state.code, byte kind.code] ++ beBytes 2 presence ++ beBytes 6 r.serial.toNat ++
  beBytes 2 r.rating ++ [byte binding.zone, byte binding.profile,
    byte (markBits [binding.exempt, r.demoted, s.held r, s.queued n]),
    byte r.lapses, byte r.slowRaises, byte r.ackMismatches, r.revision] ++
  beSat 4 (msLeft s.now r.lease) ++ beSat 4 (msLeft s.now r.bindDeadline) ++
  beSat 4 (msLeft s.now r.releaseDeadline) ++ beSat 4 (msLeft s.now (r.affirm.map (·.deadline))) ++
  reportBytes s.now r.lastReport ++ optEnvelopeBytes r.active ++ optEnvelopeBytes r.staged ++
  beBytes 2 (eff.getD 0) ++ [byte (ticket.getD 0)]

/-- LOOKUP (R18). -/
def bodyLookup (payload : List Byte) (s : State) : State × Reply :=
  match lookupForm payload with
  | none => s.refuseWith .range
  | some (.slot n) => if 63 < n then s.refuseWith .range else (s, .done (s.lookupRecord n))
  | some (.serial x) =>
    match s.slotOfSerial x with
    | none => s.refuseWith .noSuch
    | some n => (s, .done (s.lookupRecord n))

/-- The slots LIST gives for a zone: INVERTER records, not VACANT, whose zone it is (R19). -/
def State.zoneMembers (s : State) (z : Nat) : List Nat :=
  s.slotsWhere fun r => r.state ≠ .vacant && r.kind = .inverter && r.inZone z

/-- A count and the slots it counts (R19). -/
def listPayload (slots : List Nat) : List Byte := byte slots.length :: slots.map byte

/-- LIST (R19). -/
def bodyList (payload : List Byte) (s : State) : State × Reply :=
  match listForm payload with
  | none => s.refuseWith .range
  | some (.state code) =>
    match RecState.ofCode code with
    | none => s.refuseWith .range
    | some st => (s, .done (listPayload (s.slotsWhere fun r => r.state = st)))
  | some (.zone z) => if 15 < z then s.refuseWith .range else (s, .done (listPayload (s.zoneMembers z)))

/-- The ranges of the binding parts carried (R9, R20). -/
def BindParts.inRange (p : BindParts) : Bool :=
  (p.zone.all fun z => z ≤ 15) && (p.profile.all fun x => x ≤ 3) && (p.rating.all fun x => 10 ≤ x && x ≤ 4000)

/-- None of zone, profile and hold-exempt is carried, as a STORAGE record asks (R9, R20). -/
def BindParts.onlyRating (p : BindParts) : Bool := p.zone.isNone && p.profile.isNone && p.exempt.isNone

/-- The parts of a BIND suit the kind of the record (R9). -/
def BindParts.suits (p : BindParts) (k : Kind) : Bool :=
  p.inRange &&
    match k with
    | .inverter => p.zone.isSome && p.profile.isSome && p.exempt.isSome
    | .storage => p.onlyRating

/-- The binding the parts of a BIND give: present only where all three parts are carried (R9). -/
def BindParts.binding (p : BindParts) : Option Binding :=
  match p.zone, p.profile, p.exempt with
  | some z, some x, some e => some { zone := z, profile := x, exempt := e }
  | _, _, _ => none

/-- An accepted BIND (R9): the binding is stored, the revision advances, the record enters BOUND, and an inverter is sent
its first-envelope claim. -/
def State.bindRecord (n : Nat) (p : BindParts) (s : State) : State :=
  let r := s.record n
  let s₁ := s.setRecord n { r with
    binding := p.binding, rating := p.rating.getD r.rating, revision := r.revision + 1 }
  let s₂ := s₁.enterBound n
  if r.kind = .inverter then s₂.firstClaim n else s₂

/-- BIND (R9). -/
def bodyBind (payload : List Byte) (s : State) : State × Reply :=
  match bindForm payload with
  | none => s.refuseWith .range
  | some a =>
    if 63 < a.slot then s.refuseWith .range
    else if (s.record a.slot).state ≠ .addressed then s.refuseWith .wrongState
    else if a.parts.suits (s.record a.slot).kind = false then s.refuseWith .range
    else (s.bindRecord a.slot a.parts, .done [])

/-- The record after the parts of an AMEND are written (R20 to R22). -/
def amendedRecord (a : AmendArgs) (r : UnitRecord) : UnitRecord :=
  { r with
    binding := r.binding.map fun b =>
      { zone := a.parts.zone.getD b.zone, profile := a.parts.profile.getD b.profile,
        exempt := a.parts.exempt.getD b.exempt }
    rating := a.parts.rating.getD r.rating
    demoted := if a.clearHealth then false else r.demoted
    lapses := if a.clearHealth then 0 else r.lapses
    slowRaises := if a.clearHealth then 0 else r.slowRaises
    ackMismatches := if a.clearHealth then 0 else r.ackMismatches
    revision := r.revision + 1 }

/-- The AMEND lowers the rating (R22). -/
def AmendArgs.lowers (a : AmendArgs) (r : UnitRecord) : Bool :=
  match a.parts.rating with
  | some x => decide (x < r.rating)
  | none => false

/-- The AMEND cuts the ticket and removes the entry: it names a zone that is not CLEAR, or its profile or lower rating
leaves the up-rate at 0 (R21, R22). `s` already holds the amended record. -/
def State.amendUngoverns (s : State) (a : AmendArgs) (old : UnitRecord) : Bool :=
  let r := s.record a.slot
  r.kind = .inverter &&
    ((a.parts.zone.isSome && !s.zoneClear r) ||
      ((a.parts.profile.isSome || a.lowers old) && s.upRate r = 0))

/-- The AMEND cuts the ticket alone: it clears hold-exempt under an effective hold, or lowers the rating below the target
(R21, R22). `s` already holds the amended record. -/
def State.amendCuts (s : State) (a : AmendArgs) (old : UnitRecord) : Bool :=
  (a.parts.exempt = some false && old.exempt && s.raise.effHold) ||
    (a.lowers old &&
      match (s.ticketOf a.slot).bind s.ticket with
      | some t => decide ((s.record a.slot).rating < t.target)
      | none => false)

/-- The ceilings of a record with an active envelope are limited to its rating (R22). -/
def limitCeilings (r : UnitRecord) : UnitRecord :=
  match r.active with
  | none => r
  | some a =>
    { r with active := some { a with ceiling := min a.ceiling r.rating }
             staged := r.staged.map fun e => { e with ceiling := min e.ceiling r.rating } }

/-- A lower rating brings the ceilings of an inverter within it, and sends the rating-limit claim where the effective
ceiling before the AMEND was above it (R22). -/
def State.limitToRating (n : Nat) (before : Option Nat) (s : State) : State :=
  let s₁ := s.setRecord n (limitCeilings (s.record n))
  let r := s₁.record n
  let claims := (r.state = .bound || (r.state = .lapsed && r.staged.isSome)) && decide (r.rating < before.getD 0)
  if claims then s₁.stageClaim .roster n r.rating (s₁.descentRate r) else s₁

/-- An AMEND that passes every check, applied whole (R20 to R22, R96). -/
def State.amendRecord (a : AmendArgs) (s : State) : State :=
  let n := a.slot
  let old := s.record n
  let s₁ := s.setRecord n (amendedRecord a old)
  let both := s₁.amendUngoverns a old
  let cuts := both || s₁.amendCuts a old
  let candidate := a.parts.exempt = some true && !old.exempt && s.raise.effHold && s.queued n && !both
  let calls := (cuts && (s.ticketOf n).isSome) || (both && s.isHead n) || candidate
  let s₂ := if cuts then s₁.cutSlot n else s₁
  let s₃ := if both then s₂.removeEntry n else s₂
  let s₄ := if a.lowers old && old.kind = .inverter then s₃.limitToRating n old.effCeiling else s₃
  s₄.evaluateIf calls

/-- The parts of an AMEND suit the kind of the record (R20, check 5). -/
def BindParts.amends (p : BindParts) (k : Kind) : Bool :=
  p.inRange &&
    match k with
    | .inverter => true
    | .storage => p.onlyRating

/-- AMEND (R20). -/
def bodyAmend (payload : List Byte) (s : State) : State × Reply :=
  match amendForm payload with
  | none => s.refuseWith .range
  | some a =>
    let r := s.record a.slot
    if 63 < a.slot then s.refuseWith .range
    else if r.state = .vacant then s.refuseWith .noSuch
    else if a.revision ≠ r.revision then s.refuseWith .stale
    else if r.state = .addressed ∨ r.state = .retiring ∨ r.state = .recalled then s.refuseWith .wrongState
    else if a.parts.amends r.kind = false then s.refuseWith .range
    else (s.amendRecord a, .done [])

/-- RETIRE (R23). -/
def bodyRetire (payload : List Byte) (s : State) : State × Reply :=
  match oneByteForm payload with
  | none => s.refuseWith .range
  | some n =>
    if 63 < n then s.refuseWith .range
    else
      match (s.record n).state with
      | .vacant => s.refuseWith .noSuch
      | .recalled => (s.becomeVacant n, .done [])
      | .retiring => s.refuseWith .busy
      | .addressed | .bound | .dormant | .lapsed => (s.enterRetiring n, .status .accepted)

/-- The governor state and the time to the end of the recall window in ms (R162). -/
def State.governorPayload (s : State) : List Byte :=
  byte s.governor.code :: beSat 4 (match s.governor with
    | .recalling w => msLeft s.now (some w)
    | .running => 0)

/-- RECALL (R162). -/
def bodyRecall (payload : List Byte) (s : State) : State × Reply :=
  match emptyForm payload with
  | none => s.refuseWith .range
  | some _ =>
    match s.governor with
    | .running =>
      let t := s.recallBegins
      (t, .answer { status := .accepted, payload := t.governorPayload })
    | .recalling _ => (s, .answer { status := .busy, payload := s.governorPayload })

/-! ### Request of the Envelope Stager (spec/03) -/

/-- The notices of a SET PROFILE: each record, not VACANT, that holds the profile and whose up-rate is now 0, in slot
order (R56, log 15). -/
def State.profileNotices (p : Nat) (s : State) : State :=
  allSlots.foldl (init := s) fun t n =>
    let r := t.record n
    let holds : Bool := match r.binding with
      | some b => b.profile = p
      | none => false
    if r.state ≠ .vacant && r.kind = .inverter && holds && t.upRate r = 0 then t.cutAndRemove n else t

/-- SET PROFILE (R55, R56). -/
def bodySetProfile (payload : List Byte) (s : State) : State × Reply :=
  match profileForm payload with
  | none => s.refuseWith .range
  | some a =>
    let carries := a.up.isSome || a.down.isSome
    if 3 < a.profile then s.refuseWith .range
    else if carries && s.port.lock then s.refuseWith .locked
    else if (a.up.all fun i => i ≤ 15) = false ∨ (a.down.all fun i => i ≤ 15) = false then s.refuseWith .range
    else
      let x := s.profile a.profile
      let y : Profile := { up := a.up.getD x.up, down := a.down.getD x.down }
      let reply := Reply.done [byte a.profile, byte y.up, byte y.down]
      if carries then
        (({ s with profiles := place s.profiles a.profile y } : State).profileNotices a.profile, reply)
      else (s, reply)

/-! ### Requests of the Raise Allocator (spec/04) -/

/-- The hold as answers give it: filtered level, request flag, effective hold (R93, R97). That the byte of the filtered level
is 1 for asserted and 0 for not asserted is a DESIGN CHOICE (log 38). -/
def State.holdBytes (s : State) : List Byte :=
  [boolByte s.raise.holdFiltered, boolByte s.raise.holdFlag, boolByte s.raise.effHold]

/-- The live tickets with their numbers, in order of number (R97). -/
def State.liveTickets (s : State) : List (Nat × Ticket) :=
  allSixteen.filterMap fun k => (s.ticket k).map fun t => (k, t)

/-- One ticket in the answer to READ TICKETS (R97). -/
def ticketBytes (now : Nat) (x : Nat × Ticket) : List Byte :=
  [byte x.1, byte x.2.slot] ++ beBytes 2 x.2.start ++ beBytes 2 x.2.target ++ beBytes 2 x.2.rate ++
  beSat 4 (msSince now x.2.granted) ++ beSat 4 (msLeft now (some x.2.expiry))

/-- The answer to READ TICKETS (R97). -/
def State.ticketsPayload (s : State) : List Byte :=
  beBytes 4 s.line.lup ++ beBytes 4 s.raise.riseClaimed ++ [byte s.liveTickets.length] ++ s.holdBytes ++
  s.liveTickets.flatMap (ticketBytes s.now)

/-- READ TICKETS (R97). -/
def bodyReadTickets (payload : List Byte) (s : State) : State × Reply :=
  match emptyForm payload with
  | none => s.refuseWith .range
  | some _ => (s, .done s.ticketsPayload)

/-- One entry of the raise queue with its position (R98). -/
def State.queueBytes (s : State) (x : QueueEntry × Nat) : List Byte :=
  let exempt := (s.record x.1.slot).exempt
  [byte x.2, byte x.1.slot] ++ beBytes 2 x.1.wanted ++ beSat 4 (msSince s.now x.1.time) ++
  [boolByte exempt, boolByte (s.raise.effHold && !exempt)]

/-- The answer to READ QUEUE from a start position (R98). -/
def State.queuePayload (s : State) (start : Nat) : List Byte :=
  [byte s.raise.queue.length, byte start] ++
  ((s.raise.queue.zipIdx.drop start).take 16).flatMap s.queueBytes

/-- READ QUEUE (R98). -/
def bodyReadQueue (payload : List Byte) (s : State) : State × Reply :=
  match queueForm payload with
  | none => s.refuseWith .range
  | some start =>
    if 63 < start.getD 0 then s.refuseWith .range else (s, .done (s.queuePayload (start.getD 0)))

/-- The hold request flag takes a value and effective hold is worked afresh (R93, R94). -/
def State.setHoldFlag (b : Bool) (s : State) : State :=
  ({ s with raise := { s.raise with holdFlag := b } } : State).recomputeHold

/-- HOLD (R93). -/
def bodyHold (payload : List Byte) (s : State) : State × Reply :=
  match oneByteForm payload with
  | none => s.refuseWith .range
  | some 0 => (s, .done s.holdBytes)
  | some 1 => (s.setHoldFlag true, .done (s.setHoldFlag true).holdBytes)
  | some 2 => (s.setHoldFlag false, .done (s.setHoldFlag false).holdBytes)
  | some _ => s.refuseWith .range

/-! ### Requests of the Shade Tracker (spec/05) -/

/-- The effect of an accepted SET ZONE: the floor is written before the release (R115). -/
def State.changeZone (a : ZoneArgs) (s : State) : State :=
  let x := s.zone a.zone
  let s₁ := s.setZone a.zone { x with floor := a.floor.getD x.floor }
  if a.release then s₁.releaseZone a.zone else s₁

/-- SET ZONE (R115). -/
def bodySetZone (payload : List Byte) (s : State) : State × Reply :=
  match zoneForm payload with
  | none => s.refuseWith .range
  | some a =>
    if 15 < a.zone then s.refuseWith .range
    else if (a.floor.all fun f => f ≤ 1000) = false then s.refuseWith .range
    else
      let t := s.changeZone a
      (t, .done ([byte a.zone, byte (t.zone a.zone).state.code] ++ beBytes 2 (t.zone a.zone).floor))

/-- The list part of SET SENSOR MAP is in range (R105). -/
def mapListOk (entries : List MapEntry) : Bool :=
  decide (entries.length ≤ 4) && (entries.all fun e => decide (e.zone ≤ 15) && decide (1 ≤ e.lead)) &&
    decide (entries.map (·.zone)).Nodup

/-- A sensor's list as an answer gives it: a zone and a lead for each entry (R105, R194), behind a count. R105 names the
list alone; that a count byte leads it, as in the list part of the request, is a DESIGN CHOICE (log 32). -/
def mapBytes (entries : List MapEntry) : List Byte :=
  byte entries.length :: entries.flatMap fun e => byte e.zone :: beBytes 2 e.lead

/-- SET SENSOR MAP (R105). The code of the filtered level in the answer, 1 for shaded and 0 for lit as in the sets of marks
of R194, is a DESIGN CHOICE (log 32). -/
def bodySetSensorMap (payload : List Byte) (s : State) : State × Reply :=
  match mapForm payload with
  | none => s.refuseWith .range
  | some a =>
    if 15 < a.sensor then s.refuseWith .range
    else if (a.entries.all mapListOk) = false then s.refuseWith .range
    else
      let entries := a.entries.getD (look s.shade.map a.sensor [])
      ({ s with shade := { s.shade with map := place s.shade.map a.sensor entries } },
       .done ([byte a.sensor, boolByte (s.sensor a.sensor).filtered] ++ mapBytes entries))

/-- One source of a zone (R116). -/
def sourceBytes (now : Nat) (x : Source) : List Byte :=
  byte x.sensor :: (beBytes 2 x.lead ++ beSat 4 (msLeft now (some x.arrival)) ++ [boolByte x.cleared])

/-- The answer to READ ZONE (R116). -/
def State.zonePayload (s : State) (z : Nat) : List Byte :=
  let x := s.zone z
  let arrival := if x.state = .forecast then x.arrival else none
  [byte z, byte x.state.code] ++ beBytes 2 x.floor ++ beSat 4 (msLeft s.now arrival) ++
  beSat 4 (msLeft s.now x.clearTime) ++ [byte x.sources.length] ++ x.sources.flatMap (sourceBytes s.now) ++
  [byte (s.zoneMembers z).length] ++ beBytes 2 (markBits (allSixteen.map fun i => (s.sensor i).filtered)) ++
  beBytes 2 (markBits (allSixteen.map fun i => (s.sensor i).timer.isSome))

/-- READ ZONE (R116). -/
def bodyReadZone (payload : List Byte) (s : State) : State × Reply :=
  match oneByteForm payload with
  | none => s.refuseWith .range
  | some z => if 15 < z then s.refuseWith .range else (s, .done (s.zonePayload z))

/-! ### Request of the Lowering Allocator (spec/06) -/

/-- The position of a zone in the wait list; 0xFF for one that is not in it (R135, R194). -/
def State.waitPosition (s : State) (z : Nat) : Nat := (s.lower.waitList.findIdx? fun y => y = z).getD 0xFF

/-- The line of a zone; the claim fields stand in it in LOWERING only (R135, log 10). -/
def State.claimLine (s : State) (z : Nat) : List Byte :=
  let p := s.phase z
  let start := match p with
    | .timing t => msLeft s.now (some t)
    | _ => 0
  [byte z, byte (s.zone z).state.code, byte p.code] ++ beSat 4 start ++ [byte (s.waitPosition z)] ++
  match p with
  | .lowering c =>
    beBytes 4 c.rate ++ beSat 4 (msSince s.now c.granted) ++ beSat 4 (msLeft s.now (some c.plannedEnd)) ++
      [byte c.units.length]
  | _ => []

/-- The number of live claims (R135). -/
def State.liveClaims (s : State) : Nat :=
  (allSixteen.filter fun z => match s.phase z with | .lowering _ => true | _ => false).length

/-- The answer to READ CLAIMS without a zone (R135). -/
def State.claimsSummary (s : State) : List Byte :=
  beBytes 4 s.line.ldown ++ beBytes 4 s.lower.fallClaimed ++
  [byte s.liveClaims, byte s.lower.waitList.length] ++ beBytes 2 s.policy.startMargin ++
  [boolByte s.policy.early] ++ beBytes 4 s.policy.minClaim ++ allSixteen.flatMap s.claimLine ++
  s.lower.waitList.map byte

/-- One entry of a unit list (R135). A descent time above 65,535 s stands in its two bytes as the largest value: DESIGN CHOICE,
R194 says so of times in ms only (log 34). -/
def claimUnitBytes (u : ClaimUnit) : List Byte :=
  byte u.slot :: (beBytes 2 u.start ++ beBytes 2 u.target ++ beBytes 2 u.rate ++ beSat 2 u.descent)

/-- The answer to READ CLAIMS with a zone (R135). -/
def State.claimDetail (s : State) (z start : Nat) : List Byte :=
  s.claimLine z ++
  match s.phase z with
  | .lowering c => ((c.units.drop start).take 16).flatMap claimUnitBytes
  | _ => []

/-- READ CLAIMS (R135). -/
def bodyReadClaims (payload : List Byte) (s : State) : State × Reply :=
  match claimsForm payload with
  | none => s.refuseWith .range
  | some a =>
    if (a.zone.all fun z => z ≤ 15) = false ∨ 63 < a.start.getD 0 then s.refuseWith .range
    else
      match a.zone with
      | none => (s, .done s.claimsSummary)
      | some z => (s, .done (s.claimDetail z (a.start.getD 0)))

/-! ### Requests of the Line Controller (spec/07) -/

/-- The block of one reserved slot in the answer to READ PLANT (R155, log 24). -/
def State.plantBlock (s : State) (n : Nat) : List Byte :=
  let r := s.record n
  if r.state = .vacant then [byte n, byte r.state.code] ++ beBytes 21 0
  else
    let pending := (s.tx n).cover.map (·.share)
    let age := match r.lastReport with
      | some (.storage _ _ _ _ t) => msSince s.now t
      | some (.inverter _ _ t) => msSince s.now t
      | none => 0
    [byte n, byte r.state.code,
     byte (markBits [r.usable, r.lastReport.isSome, (s.lastShare n).isSome, pending.isSome])] ++
    beBytes 2 r.countedCharge ++ beBytes 2 (r.countedDischarge s.policy.reserve) ++
    beBytes 2 r.countedChargeLimit ++ beInt 2 r.storageOutput ++ beInt 4 ((s.lastShare n).getD 0) ++
    beInt 4 (pending.getD 0) ++ beSat 4 age

/-- The time since the start of an open episode in ms (R155). -/
def Episode.age (now : Nat) : Episode → Nat
  | .none => 0
  | .fall t => msSince now t
  | .rise t => msSince now t

/-- The reserved slots under a reserved slot count, ascending (R2). -/
def reservedSlots (nr : Nat) : List Nat := allSlots.filter fun n => slotKind nr n = .storage

/-- The answer to READ PLANT (R155). -/
def State.plantPayload (s : State) : List Byte :=
  beBytes 4 s.arraySum ++ beInt 4 (s.line.pl.getD 0) ++ beInt 4 s.line.cover ++ beInt 4 s.line.given ++
  beInt 4 ((s.usableSlots.map fun n => (s.record n).storageOutput).sum) ++
  beBytes 4 s.line.lup ++ beBytes 4 s.line.ldown ++ beBytes 4 (stepOf s.line.lup s.policy.lineStep) ++
  beBytes 4 (stepOf s.line.ldown s.policy.lineStep) ++ beBytes 2 s.policy.lineStep ++
  [boolByte s.line.pl.isNone, byte s.line.condition.code, byte s.usableSlots.length, byte s.line.episode.code] ++
  beSat 4 (s.line.episode.age s.now) ++ beBytes 2 s.line.fallBreaches ++ beBytes 2 s.line.riseBreaches ++
  beSat 4 (msLeft s.now s.line.timer) ++ [byte s.policy.nr] ++
  (reservedSlots s.policy.nr).flatMap s.plantBlock

/-- READ PLANT (R155): with the clear mark the counters become 0 after the answer is built. -/
def bodyReadPlant (payload : List Byte) (s : State) : State × Reply :=
  match plantForm payload with
  | none => s.refuseWith .range
  | some clear =>
    (if clear then { s with line := { s.line with fallBreaches := 0, riseBreaches := 0 } } else s,
     .done s.plantPayload)

/-- A plant limit is in range (R152). -/
def limitOk (n : Nat) : Bool := 1 ≤ n && n ≤ 100000

/-- An accepted SET LIMITS: every part is written together and each change notified (R153, R154). -/
def State.writeLimits (a : LimitsArgs) (s : State) : State :=
  let lup := s.line.lup
  let ldown := s.line.ldown
  let s₁ : State := { s with line := { s.line with lup := a.lup.getD lup, ldown := a.ldown.getD ldown } }
  (s₁.lupChanged lup).ldownChanged ldown

/-- SET LIMITS (R153). -/
def bodySetLimits (payload : List Byte) (s : State) : State × Reply :=
  match limitsForm payload with
  | none => s.refuseWith .range
  | some a =>
    if (a.lup.isSome || a.ldown.isSome) && s.port.lock then s.refuseWith .locked
    else if (a.lup.all limitOk) = false ∨ (a.ldown.all limitOk) = false then s.refuseWith .range
    else
      (s.writeLimits a,
       .done (beBytes 4 (a.lup.getD s.line.lup) ++ beBytes 4 (a.ldown.getD s.line.ldown)))

/-! ### By code (spec/10 10.3) -/

/-- The request a code names. -/
def requestOf (code : Byte) : Option (List Byte → State → State × Reply) :=
  match code.toNat with
  | 0x00 => some bodyNop
  | 0x01 => some bodyStatus
  | 0x02 => some bodyPeek
  | 0x03 => some bodySetMask
  | 0x04 => some bodySetPolicy
  | 0x05 => some bodyLock
  | 0x06 => some bodyRestart
  | 0x07 => some bodyIdentify
  | 0x10 => some bodyLookup
  | 0x11 => some bodyList
  | 0x12 => some bodyBind
  | 0x13 => some bodyAmend
  | 0x14 => some bodyRetire
  | 0x20 => some bodySetProfile
  | 0x30 => some bodyReadTickets
  | 0x31 => some bodyReadQueue
  | 0x32 => some bodyHold
  | 0x40 => some bodySetZone
  | 0x41 => some bodySetSensorMap
  | 0x42 => some bodyReadZone
  | 0x50 => some bodyReadClaims
  | 0x60 => some bodyReadPlant
  | 0x61 => some bodySetLimits
  | 0x70 => some bodyRecall
  | _ => none

end Sys2Proof.Machine
end

