-- ==== Sys2Proof/Machine/Supervisor.lean ====
section
/-! DEFINITION. The meanings of the rows of the supervisor port: the 24 requests, each a frame whose chip select rises, and
the frames and pin events of the port (R173 to R181). -/

namespace Sys2Proof.Machine

/-! ### The requests -/

/-- NOP (R180). -/
def execNop (payload : List Byte) (s : State) : Host.Outcome State Fault Refusal :=
  .next (s.requestFrame 0x00 payload bodyNop)

/-- STATUS (R184). -/
def execStatus (payload : List Byte) (s : State) : Host.Outcome State Fault Refusal :=
  .next (s.requestFrame 0x01 payload bodyStatus)

/-- PEEK (R185). -/
def execPeek (payload : List Byte) (s : State) : Host.Outcome State Fault Refusal :=
  .next (s.requestFrame 0x02 payload bodyPeek)

/-- SET MASK (R186). -/
def execSetMask (payload : List Byte) (s : State) : Host.Outcome State Fault Refusal :=
  .next (s.requestFrame 0x03 payload bodySetMask)

/-- SET POLICY (R187, R188). -/
def execSetPolicy (payload : List Byte) (s : State) : Host.Outcome State Fault Refusal :=
  .next (s.requestFrame 0x04 payload bodySetPolicy)

/-- LOCK (R189). -/
def execLock (payload : List Byte) (s : State) : Host.Outcome State Fault Refusal :=
  .next (s.requestFrame 0x05 payload bodyLock)

/-- RESTART (R190). -/
def execRestart (payload : List Byte) (s : State) : Host.Outcome State Fault Refusal :=
  .next (s.requestFrame 0x06 payload bodyRestart)

/-- IDENTIFY (R191). -/
def execIdentify (payload : List Byte) (s : State) : Host.Outcome State Fault Refusal :=
  .next (s.requestFrame 0x07 payload bodyIdentify)

/-- LOOKUP (R18). -/
def execLookup (payload : List Byte) (s : State) : Host.Outcome State Fault Refusal :=
  .next (s.requestFrame 0x10 payload bodyLookup)

/-- LIST (R19). -/
def execList (payload : List Byte) (s : State) : Host.Outcome State Fault Refusal :=
  .next (s.requestFrame 0x11 payload bodyList)

/-- BIND (R9). -/
def execBind (payload : List Byte) (s : State) : Host.Outcome State Fault Refusal :=
  .next (s.requestFrame 0x12 payload bodyBind)

/-- AMEND (R20 to R22). -/
def execAmend (payload : List Byte) (s : State) : Host.Outcome State Fault Refusal :=
  .next (s.requestFrame 0x13 payload bodyAmend)

/-- RETIRE (R23). -/
def execRetire (payload : List Byte) (s : State) : Host.Outcome State Fault Refusal :=
  .next (s.requestFrame 0x14 payload bodyRetire)

/-- SET PROFILE (R55, R56). -/
def execSetProfile (payload : List Byte) (s : State) : Host.Outcome State Fault Refusal :=
  .next (s.requestFrame 0x20 payload bodySetProfile)

/-- READ TICKETS (R97). -/
def execReadTickets (payload : List Byte) (s : State) : Host.Outcome State Fault Refusal :=
  .next (s.requestFrame 0x30 payload bodyReadTickets)

/-- READ QUEUE (R98). -/
def execReadQueue (payload : List Byte) (s : State) : Host.Outcome State Fault Refusal :=
  .next (s.requestFrame 0x31 payload bodyReadQueue)

/-- HOLD (R93, R94). -/
def execHold (payload : List Byte) (s : State) : Host.Outcome State Fault Refusal :=
  .next (s.requestFrame 0x32 payload bodyHold)

/-- SET ZONE (R115). -/
def execSetZone (payload : List Byte) (s : State) : Host.Outcome State Fault Refusal :=
  .next (s.requestFrame 0x40 payload bodySetZone)

/-- SET SENSOR MAP (R105). -/
def execSetSensorMap (payload : List Byte) (s : State) : Host.Outcome State Fault Refusal :=
  .next (s.requestFrame 0x41 payload bodySetSensorMap)

/-- READ ZONE (R116). -/
def execReadZone (payload : List Byte) (s : State) : Host.Outcome State Fault Refusal :=
  .next (s.requestFrame 0x42 payload bodyReadZone)

/-- READ CLAIMS (R135). -/
def execReadClaims (payload : List Byte) (s : State) : Host.Outcome State Fault Refusal :=
  .next (s.requestFrame 0x50 payload bodyReadClaims)

/-- READ PLANT (R155). -/
def execReadPlant (payload : List Byte) (s : State) : Host.Outcome State Fault Refusal :=
  .next (s.requestFrame 0x60 payload bodyReadPlant)

/-- SET LIMITS (R153, R154). -/
def execSetLimits (payload : List Byte) (s : State) : Host.Outcome State Fault Refusal :=
  .next (s.requestFrame 0x61 payload bodySetLimits)

/-- RECALL (R162). -/
def execRecall (payload : List Byte) (s : State) : Host.Outcome State Fault Refusal :=
  .next (s.requestFrame 0x70 payload bodyRecall)

/-! ### Frames that carry no request, and the pins -/

/-- A frame that passes its check and whose code names no request ends: it is answered UNKNOWN (R175). A code that names a
request is not this event (log 6); a payload above 250 bytes fails the check (R174). -/
def execUnknown (code : Byte) (payload : List Byte) (s : State) : Host.Outcome State Fault Refusal :=
  .next (if (requestOf code).isSome then s
    else s.endFrame true (requestBytes code payload) fun t => if 250 < payload.length then t.frameFails else t.codeUnknown)

/-- A frame of at least one whole byte that fails its check ends; the bytes are all the whole bytes of the frame (R173,
R174). One that passes it is not this event (log 6). -/
def execCheckError (bytes : List Byte) (s : State) : Host.Outcome State Fault Refusal :=
  .next (if bytes = [] ∨ (parseRequest bytes).isSome then s else s.endFrame false bytes State.frameFails)

/-- Chip select falls during an execution: the frame is answered NOT READY and its request will be discarded (R178). With no
execution in progress it is not this event (log 6). -/
def execNotReady (s : State) : Host.Outcome State Fault Refusal :=
  .next (if s.port.execution.isSome then s.portFall else s)

/-- The execution in progress completes (R177). -/
def execExecutionComplete (s : State) : Host.Outcome State Fault Refusal :=
  .next (match s.inReset, s.port.execution with
    | none, some e => s.completeExecution e
    | _, _ => s)

/-- The 2 ms without a clock edge are over, while a frame is received (R179). -/
def State.stallDue (s : State) : Option Nat :=
  match s.port.receiver with
  | .frame f => some (f.lastEdge + ms 2)
  | .idle | .abandoned | .waitHigh => none

/-- The frame being received stalls for 2 ms (R179); time is then no earlier than 2 ms after the last edge (log 2). -/
def execFrameTimeout (s : State) : Host.Outcome State Fault Refusal :=
  s.event fun t => t.expire State.stallDue State.portTimeout

/-- Chip select falls (R176, R178). -/
def execChipSelectFall (s : State) : Host.Outcome State Fault Refusal := .next s.portFall

/-- A clock edge (R173, R179). -/
def execClockEdge (rising dataIn : Bool) (s : State) : Host.Outcome State Fault Refusal :=
  .next (s.portEdge rising dataIn)

/-- A frame given by its whole bytes ends by the bits clocked in: no whole byte is no frame (R173); a failed check answers
CHECK ERROR (R174); a code that names no request answers UNKNOWN (R175); a request is executed (R177). -/
def State.riseOnBytes (bytes : List Byte) (s : State) : State :=
  if bytes = [] then s.portIdle
  else
    match parseRequest bytes with
    | none => s.frameFails.settle
    | some (code, payload) =>
      match requestOf code with
      | none => s.codeUnknown.settle
      | some body => (s.execute (body payload)).settle

/-- Chip select rises (R173): the receiver returns to idle. A NOT READY frame, an abandoned frame and the period after a
reset begin no execution (R178, R179, R181); a frame received is taken by its bits (log 7). -/
def execChipSelectRise (s : State) : Host.Outcome State Fault Refusal :=
  .next (match s.inReset, s.port.receiver with
    | none, .frame f => if f.ready then s.riseOnBytes (bitsBytes f.bitsIn) else s.portIdle
    | _, _ => s.portIdle)

end Sys2Proof.Machine
end

