-- ==== Sys2Proof/Machine/Timers.lean ====
section
/-! DEFINITION. The meanings of the rows of the resets, the timers and the input pins. A timer that does not run does not
expire (log 6); one that does brings time to its deadline (log 2). -/

namespace Sys2Proof.Machine

/-! ### Resets (R169 to R172) -/

/-- Power is applied (R169, R170). -/
def execPowerOnReset (s : State) : Host.Outcome State Fault Refusal := .next (s.beginReset .powerOn)

/-- The RESET pin is asserted (R169, R170). A power-on reset being taken stays one (log 11). -/
def execResetPin (s : State) : Host.Outcome State Fault Refusal :=
  .next (match s.inReset with
    | some .powerOn => s
    | _ => s.beginReset .resetPin)

/-- The reset being taken ends (R172). -/
def execResetEnd (s : State) : Host.Outcome State Fault Refusal :=
  .next (match s.inReset with
    | none => s
    | some kind => s.endReset kind)

/-! ### Timers -/

/-- The end of the recall window, while RECALLING (R159). -/
def State.windowEnd (s : State) : Option Nat :=
  match s.governor with
  | .running => none
  | .recalling w => some w

/-- The recall window expires (R167). -/
def execRecallWindowExpiry (s : State) : Host.Outcome State Fault Refusal :=
  s.event fun t => t.expire State.windowEnd State.recallEnds

/-- The effect of a lease expiry by the state of the record (R8, R11, R12). -/
def State.leaseExpires (n : Nat) (s : State) : State :=
  match (s.record n).state with
  | .addressed => s.becomeVacant n
  | .bound | .dormant => s.enterLapsed n true
  | .vacant | .lapsed | .recalled | .retiring => s

/-- The lease deadline of a record expires (R7, R8, R11, R12). -/
def execLeaseExpiry (n : Nat) (s : State) : Host.Outcome State Fault Refusal :=
  s.event fun t => t.expire (fun u => (u.record n).lease) (State.leaseExpires n)

/-- The bind deadline of a record, while it is ADDRESSED (R8). -/
def State.bindDue (n : Nat) (s : State) : Option Nat :=
  if (s.record n).state = .addressed then (s.record n).bindDeadline else none

/-- The bind deadline of an ADDRESSED record expires (R8, R16). -/
def execBindTimeout (n : Nat) (s : State) : Host.Outcome State Fault Refusal :=
  s.event fun t => t.expire (State.bindDue n) fun u => (u.enterRetiring n).raiseCause .bindTimeout

/-- The release deadline of a record, while it is RETIRING (R16). -/
def State.releaseDue (n : Nat) (s : State) : Option Nat :=
  if (s.record n).state = .retiring then (s.record n).releaseDeadline else none

/-- The release deadline of a RETIRING record expires (R16). -/
def execReleaseDeadlineExpiry (n : Nat) (s : State) : Host.Outcome State Fault Refusal :=
  s.event fun t => t.expire (State.releaseDue n) (State.completeRetirement n)

/-- The affirm-due point of a slot is reached (R47, R48). -/
def execAffirmDue (n : Nat) (s : State) : Host.Outcome State Fault Refusal :=
  s.event fun t => t.expire (fun u => (u.record n).affirm.bind (·.due)) (State.affirmDueReached n)

/-- The affirm deadline of a slot expires: nothing but time changes (R47). -/
def execAffirmDeadlineExpiry (n : Nat) (s : State) : Host.Outcome State Fault Refusal :=
  s.event fun t => t.expire (fun u => (u.record n).affirm.map (·.deadline)) id

/-- A ticket expires: it ends, evaluation runs, and SLOW RAISES of its record advances (R86). -/
def State.expireTicket (k : Nat) (s : State) : State :=
  match s.ticket k with
  | none => s
  | some x => ((s.endTicket k).grantEvaluation).advanceSlowRaises x.slot

/-- The expiry time of a live ticket is reached (R86). -/
def execTicketExpiry (k : Nat) (s : State) : Host.Outcome State Fault Refusal :=
  s.event fun t => t.expire (fun u => (u.ticket k).map (·.expiry)) (State.expireTicket k)

/-- The HOLD line takes a level: the filter starts where it differs from the filtered level and is abandoned where it does
not (R92). -/
def State.holdLevel (level : Bool) (s : State) : State :=
  if s.raise.holdLine = level then s
  else
    { s with raise := { s.raise with
        holdLine := level
        holdTimer := if level = s.raise.holdFiltered then none else some (s.now + ms 20) } }

/-- The level of the HOLD pin changes (R92). During a reset only the pin changes (R169). -/
def execHoldInputChange (level : Bool) (s : State) : Host.Outcome State Fault Refusal :=
  .next (match s.inReset with
    | some _ => { s with raise := { s.raise with holdLine := level } }
    | none => s.holdLevel level)

/-- The level of the HOLD line becomes the filtered level and effective hold is worked afresh (R92, R94). -/
def State.takeHoldLevel (s : State) : State :=
  ({ s with raise := { s.raise with holdTimer := none, holdFiltered := s.raise.holdLine } } : State).recomputeHold

/-- A HOLD level has held for 20 ms (R92). -/
def execHoldFilterExpiry (s : State) : Host.Outcome State Fault Refusal :=
  s.event fun t => t.expire (·.raise.holdTimer) State.takeHoldLevel

/-- The level of a sensor pin changes (R101, R102). During a reset only the pin changes (R169). -/
def execSensorLineChange (i : Nat) (shaded : Bool) (s : State) : Host.Outcome State Fault Refusal :=
  .next (match s.inReset with
    | some _ => s.setSensor i { s.sensor i with line := shaded }
    | none => s.sensorLevel i shaded)

/-- The filtered level becomes the candidate, the timer stops, and the change is taken by the zones (R102, R103). -/
def State.debounced (i : Nat) (s : State) : State :=
  match (s.sensor i).timer with
  | none => s
  | some (level, _) =>
    (s.setSensor i { s.sensor i with filtered := level, timer := none }).debouncedChange i level

/-- The debounce timer of a line expires (R102, R103). -/
def execDebounceExpiry (i : Nat) (s : State) : Host.Outcome State Fault Refusal :=
  s.event fun t => t.expire (fun u => (u.sensor i).timer.map (·.2)) (State.debounced i)

/-- The arrival time of a zone, while it is FORECAST (R109). -/
def State.arrivalDue (z : Nat) (s : State) : Option Nat :=
  if (s.zone z).state = .forecast then (s.zone z).arrival else none

/-- The arrival timer of a FORECAST zone expires (R111). -/
def execArrivalExpiry (z : Nat) (s : State) : Host.Outcome State Fault Refusal :=
  s.event fun t => t.expire (State.arrivalDue z) (State.zoneArrives z)

/-- The clear time of a zone, while it is SHADED (R110). -/
def State.clearDue (z : Nat) (s : State) : Option Nat :=
  if (s.zone z).state = .shaded then (s.zone z).clearTime else none

/-- The clear timer of a SHADED zone expires (R112). -/
def execClearTimeExpiry (z : Nat) (s : State) : Host.Outcome State Fault Refusal :=
  s.event fun t => t.expire (State.clearDue z) (State.returnToClear z)

/-- The start time of a zone, while it is in TIMING (R119). -/
def State.startDue (z : Nat) (s : State) : Option Nat :=
  match s.phase z with
  | .timing start => some start
  | _ => none

/-- The start timer of a zone in TIMING expires (R123). -/
def execStartTimerExpiry (z : Nat) (s : State) : Host.Outcome State Fault Refusal :=
  s.event fun t => t.expire (State.startDue z) (State.loweringStart z)

/-- The planned end of a zone's claim, while it is live (R127). -/
def State.endDue (z : Nat) (s : State) : Option Nat :=
  match s.phase z with
  | .lowering c => some c.plannedEnd
  | _ => none

/-- The planned end of a live claim is reached (R129). -/
def execPlannedEnd (z : Nat) (s : State) : Host.Outcome State Fault Refusal :=
  s.event fun t => t.expire (State.endDue z) (State.loweringPlannedEnd z)

/-- The line step timer expires (R139, R140). -/
def execLineStep (s : State) : Host.Outcome State Fault Refusal :=
  s.event fun t => t.expire (·.line.timer) State.stepLine

end Sys2Proof.Machine
end

