-- ==== Sys2Proof/Machine/Transmit.lean ====
section
/-! DEFINITION. The meanings of the rows in which the arbiter begins a transaction (R29, R31, R35, R40 to R45, R52). A row
whose transmission is not the arbiter's choice is no event of the part, and nothing changes (log 6). -/

namespace Sys2Proof.Machine

/-- The transmission begins where it is the choice of the arbiter. -/
def State.transmit (wanted : TxRef → Bool) (send : State → State) (s : State) : Host.Outcome State Fault Refusal :=
  s.event fun t =>
    match t.arbiterChoice with
    | none => none
    | some x => if wanted x then some (send t) else none

/-- POLL to a slot (R31). -/
def execPoll (n : Nat) (s : State) : Host.Outcome State Fault Refusal :=
  s.transmit (fun x => x = .poll n) (State.sendPoll n)

/-- JOIN WINDOW (R35). -/
def execJoinWindow (s : State) : Host.Outcome State Fault Refusal :=
  s.transmit (fun x => x = .joinWindow) State.sendJoinWindow

/-- ASSIGN for a slot (R40). -/
def execAssign (n : Nat) (s : State) : Host.Outcome State Fault Refusal :=
  s.transmit (fun x => x = .assign n) (State.sendAssign n)

/-- REFUSE (R41). -/
def execRefuse (s : State) : Host.Outcome State Fault Refusal :=
  s.transmit (fun x => x = .refuse) State.sendRefuse

/-- RELEASE to a slot (R42). -/
def execRelease (n : Nat) (s : State) : Host.Outcome State Fault Refusal :=
  s.transmit (fun x => x = .release n) (State.sendRelease n)

/-- The RECALL broadcast (R43). -/
def execRecallBroadcast (s : State) : Host.Outcome State Fault Refusal :=
  s.transmit (fun x => x = .recall) State.sendRecall

/-- The ZONE ENVELOPE the arbiter has chosen, where it is one of the zone. -/
def State.chosenZoneEnv (s : State) (z : Nat) : Option ZoneEnvTx :=
  match s.arbiterChoice with
  | some (.zoneEnv e) => if e.zone = z then some e else none
  | _ => none

/-- ZONE ENVELOPE of a zone (R44). -/
def execZoneEnvelope (z : Nat) (s : State) : Host.Outcome State Fault Refusal :=
  s.event fun t => (t.chosenZoneEnv z).map fun e => t.sendZoneEnv e

/-- COVER to a slot (R45). -/
def execCover (n : Nat) (s : State) : Host.Outcome State Fault Refusal :=
  s.transmit (fun x => x = .cover n) (State.sendCover n)

end Sys2Proof.Machine
end

