-- ==== Sys2Proof/Machine/Dispatch.lean ====
section
/-! DEFINITION. The meaning of each command: one arm for each constructor. -/

namespace Sys2Proof.Machine

/-- The effect of a command on everything but the queue. -/
def exec (i : Instr) (s : State) : Host.Outcome State Fault Refusal :=
  match i with
  | .nop payload => Sys2Proof.Machine.execNop payload s
  | .status payload => Sys2Proof.Machine.execStatus payload s
  | .peek payload => Sys2Proof.Machine.execPeek payload s
  | .setMask payload => Sys2Proof.Machine.execSetMask payload s
  | .setPolicy payload => Sys2Proof.Machine.execSetPolicy payload s
  | .lock payload => Sys2Proof.Machine.execLock payload s
  | .restart payload => Sys2Proof.Machine.execRestart payload s
  | .identify payload => Sys2Proof.Machine.execIdentify payload s
  | .lookup payload => Sys2Proof.Machine.execLookup payload s
  | .list payload => Sys2Proof.Machine.execList payload s
  | .bind payload => Sys2Proof.Machine.execBind payload s
  | .amend payload => Sys2Proof.Machine.execAmend payload s
  | .retire payload => Sys2Proof.Machine.execRetire payload s
  | .setProfile payload => Sys2Proof.Machine.execSetProfile payload s
  | .readTickets payload => Sys2Proof.Machine.execReadTickets payload s
  | .readQueue payload => Sys2Proof.Machine.execReadQueue payload s
  | .hold payload => Sys2Proof.Machine.execHold payload s
  | .setZone payload => Sys2Proof.Machine.execSetZone payload s
  | .setSensorMap payload => Sys2Proof.Machine.execSetSensorMap payload s
  | .readZone payload => Sys2Proof.Machine.execReadZone payload s
  | .readClaims payload => Sys2Proof.Machine.execReadClaims payload s
  | .readPlant payload => Sys2Proof.Machine.execReadPlant payload s
  | .setLimits payload => Sys2Proof.Machine.execSetLimits payload s
  | .recall payload => Sys2Proof.Machine.execRecall payload s
  | .unknown code payload => Sys2Proof.Machine.execUnknown code payload s
  | .checkError bytes => Sys2Proof.Machine.execCheckError bytes s
  | .notReady => Sys2Proof.Machine.execNotReady s
  | .executionComplete => Sys2Proof.Machine.execExecutionComplete s
  | .frameTimeout => Sys2Proof.Machine.execFrameTimeout s
  | .powerOnReset => Sys2Proof.Machine.execPowerOnReset s
  | .resetPin => Sys2Proof.Machine.execResetPin s
  | .resetEnd => Sys2Proof.Machine.execResetEnd s
  | .recallWindowExpiry => Sys2Proof.Machine.execRecallWindowExpiry s
  | .poll n => Sys2Proof.Machine.execPoll n s
  | .joinWindow => Sys2Proof.Machine.execJoinWindow s
  | .assign n => Sys2Proof.Machine.execAssign n s
  | .refuse => Sys2Proof.Machine.execRefuse s
  | .release n => Sys2Proof.Machine.execRelease n s
  | .recallBroadcast => Sys2Proof.Machine.execRecallBroadcast s
  | .zoneEnvelope z => Sys2Proof.Machine.execZoneEnvelope z s
  | .cover n => Sys2Proof.Machine.execCover n s
  | .transactionEnd => Sys2Proof.Machine.execTransactionEnd s
  | .replyWindowClose => Sys2Proof.Machine.execReplyWindowClose s
  | .fieldFrameDiscarded bytes => Sys2Proof.Machine.execFieldFrameDiscarded bytes s
  | .report addr payload => Sys2Proof.Machine.execReport addr payload s
  | .join addr payload => Sys2Proof.Machine.execJoin addr payload s
  | .released addr payload => Sys2Proof.Machine.execReleased addr payload s
  | .leaseExpiry n => Sys2Proof.Machine.execLeaseExpiry n s
  | .bindTimeout n => Sys2Proof.Machine.execBindTimeout n s
  | .releaseDeadlineExpiry n => Sys2Proof.Machine.execReleaseDeadlineExpiry n s
  | .affirmDue n => Sys2Proof.Machine.execAffirmDue n s
  | .affirmDeadlineExpiry n => Sys2Proof.Machine.execAffirmDeadlineExpiry n s
  | .ticketExpiry k => Sys2Proof.Machine.execTicketExpiry k s
  | .holdInputChange level => Sys2Proof.Machine.execHoldInputChange level s
  | .holdFilterExpiry => Sys2Proof.Machine.execHoldFilterExpiry s
  | .sensorLineChange line shaded => Sys2Proof.Machine.execSensorLineChange line shaded s
  | .debounceExpiry line => Sys2Proof.Machine.execDebounceExpiry line s
  | .arrivalExpiry z => Sys2Proof.Machine.execArrivalExpiry z s
  | .clearTimeExpiry z => Sys2Proof.Machine.execClearTimeExpiry z s
  | .startTimerExpiry z => Sys2Proof.Machine.execStartTimerExpiry z s
  | .plannedEnd z => Sys2Proof.Machine.execPlannedEnd z s
  | .lineStep => Sys2Proof.Machine.execLineStep s
  | .chipSelectFall => Sys2Proof.Machine.execChipSelectFall s
  | .clockEdge rising dataIn => Sys2Proof.Machine.execClockEdge rising dataIn s
  | .chipSelectRise => Sys2Proof.Machine.execChipSelectRise s

end Sys2Proof.Machine
end

