-- ==== Sys2Proof/Machine/Idle.lean ====
section
/-! DEFINITION. What the part does of itself on an empty queue: the events that are due, one of which is taken, or time
that passes (log 3, log 4). -/

namespace Sys2Proof.Machine

/-- What the part may do of itself: the event of a row, or an event of an allocator, which takes a notice (R113). -/
inductive Due where
  | row (c : Instr)
  | raiseNotice
  | lowerNotice
  deriving DecidableEq, Repr

/-- What the part does of itself, done. -/
def State.work (d : Due) (s : State) : Host.Outcome State Fault Refusal :=
  match d with
  | .row c => exec c s
  | .raiseNotice => s.event fun t => some t.takeRaiseNotice
  | .lowerNotice => s.event fun t => some t.takeLowerNotice

/-- A deadline that has been reached makes a command due. -/
def State.dueAt (s : State) (deadline : Option Nat) (c : Instr) : List Instr :=
  match deadline with
  | none => []
  | some d => if d ≤ s.now then [c] else []

/-- The row of a transmission. -/
def TxRef.command : TxRef → Instr
  | .poll n => .poll n
  | .assign n => .assign n
  | .refuse => .refuse
  | .release n => .release n
  | .recall => .recallBroadcast
  | .zoneEnv e => .zoneEnvelope e.zone
  | .cover n => .cover n
  | .joinWindow => .joinWindow

/-- The events of the port that are due: an execution is over 40 µs after it began, the last moment R177 leaves, DESIGN
CHOICE (log 43); a frame stalls at 2 ms (R179). -/
def State.duePort (s : State) : List Instr :=
  s.dueAt (s.port.execution.map fun e => e.start + 40) .executionComplete ++
  match s.port.receiver with
  | .frame f => s.dueAt (some (f.lastEdge + ms 2)) .frameTimeout
  | .idle | .abandoned | .waitHigh => []

/-- The timers of one slot that are due. -/
def State.dueSlot (s : State) (n : Nat) : List Instr :=
  let r := s.record n
  (match r.state with
    | .addressed => s.dueAt r.lease (.leaseExpiry n) ++ s.dueAt r.bindDeadline (.bindTimeout n)
    | .bound | .dormant => s.dueAt r.lease (.leaseExpiry n)
    | .retiring => s.dueAt r.releaseDeadline (.releaseDeadlineExpiry n)
    | .vacant | .lapsed | .recalled => []) ++
  s.dueAt (r.affirm.bind (·.due)) (.affirmDue n)

/-- The timers of one ticket place, one sensor line and one zone, of the same number, that are due. -/
def State.dueSixteen (s : State) (k : Nat) : List Instr :=
  s.dueAt ((s.ticket k).map (·.expiry)) (.ticketExpiry k) ++
  s.dueAt ((s.sensor k).timer.map (·.2)) (.debounceExpiry k) ++
  (match (s.zone k).state with
    | .clear => []
    | .forecast => s.dueAt (s.zone k).arrival (.arrivalExpiry k)
    | .shaded => s.dueAt (s.zone k).clearTime (.clearTimeExpiry k)) ++
  match s.phase k with
  | .timing start => s.dueAt (some start) (.startTimerExpiry k)
  | .lowering c => s.dueAt (some c.plannedEnd) (.plannedEnd k)
  | _ => []

/-- The rows that are due now: timers that have reached their deadlines, the end of a frame without reply, the choice of the
arbiter. A reply window whose transaction still runs when it closes has had no reply, DESIGN CHOICE (log 41). -/
def State.dueRows (s : State) : List Instr :=
  match s.inReset with
  | some _ => []
  | none =>
    s.duePort ++ s.dueAt s.frameEnds .transactionEnd ++ s.dueAt s.windowDue .replyWindowClose ++
    (s.arbiterChoice.map TxRef.command).toList ++
    (match s.governor with
      | .recalling w => s.dueAt (some w) .recallWindowExpiry
      | .running => []) ++
    s.dueAt s.raise.holdTimer .holdFilterExpiry ++ s.dueAt s.line.timer .lineStep ++
    allSlots.flatMap s.dueSlot ++ allSixteen.flatMap s.dueSixteen

/-- The notices that are due: each allocator takes those given to it in the order given (R113, R114). A reset holds none. -/
def State.dueNotices (s : State) : List Due :=
  match s.inReset with
  | some _ => []
  | none =>
    (if s.raise.notices = [] then [] else [.raiseNotice]) ++ if s.lower.notices = [] then [] else [.lowerNotice]

/-- The events of the part that are due now. -/
def State.dueEvents (s : State) : List Due := s.dueNotices ++ s.dueRows.map .row

/-- The event taken among those that are due: the only one, or the one a free value names (log 4). -/
def pickEvent (choice : Nat) : List Due → Option Due
  | [] => none
  | [c] => some c
  | c :: d :: rest => some ((c :: d :: rest).getD (choice % (rest.length + 2)) c)

/-- The step on an empty queue: one due event is taken; with none due, time advances by 1 µs (log 3). -/
def State.idle (s : State) : Host.Outcome State Fault Refusal :=
  match pickEvent (Config.eventChoice s.choices) s.dueEvents with
  | some c => State.work c { s with choices := s.choices + 1 }
  | none => .next { s with now := s.now + 1 }

end Sys2Proof.Machine
end

