-- ==== Sys2Proof/Safety.lean ====
section
/-! DEFINITION. The properties the claims speak of: when a frame of the supervisor is taken and what its answer leaves,
and the invariants of the part. Each is decidable on a state. -/

namespace Sys2Proof.Machine

/-! ### A frame of the supervisor and its answer -/

/-- A frame of these bytes whose chip select now rises is checked (R174): no reset is taken, and either the whole frame
comes now with no execution in progress, or the bits clocked in so far are the first bits of it (log 7). Where fill may
follow the bytes, more of it may have been clocked in; otherwise they are all the whole bytes of the frame. -/
def State.takes (fill : Bool) (bytes : List Byte) (s : State) : Bool :=
  s.inReset.isNone &&
  match s.port.receiver with
  | .idle => s.port.execution.isNone
  | .frame f => f.ready && bitsFit fill f.bitsIn bytes
  | .abandoned | .waitHigh => false

/-- A request of a code and a payload is taken: its frame is checked, and its payload is at most 250 bytes (R173, R174).
-/
def State.takesRequest (code : Byte) (payload : List Byte) (s : State) : Bool :=
  decide (payload.length ≤ 250) && s.takes true (requestBytes code payload)

/-- The port with an execution begun now, and the receiver idle (R173, R177). -/
def State.executing (r : Option Response) (s : State) : Port :=
  { s.port with csLow := false, receiver := .idle, execution := some { response := r, start := s.now } }

/-- The state in which a request has been answered and nothing else is changed. The pending POLLs and the JOIN WINDOW
are as `settle` leaves them (R34, R35, R50). -/
def State.answered (x : Status) (payload : List Byte) (s : State) : State :=
  { s with port := s.executing (some { status := x, payload := payload }), link := s.settle.link }

/-- In `t` the execution of a request taken in `s` will make this response pending (R177); the receiver is idle and the
pending response, the mask and the lock stand. -/
abbrev State.Responds (s t : State) (x : Status) (payload : List Byte) : Prop :=
  t.port.csLow = false ∧ t.port.receiver = .idle ∧
  t.port.execution = some { response := some { status := x, payload := payload }, start := s.now } ∧
  t.port.pending = s.port.pending ∧ t.port.sck = s.port.sck

/-- What every event outside a reset leaves as it was, whatever block it belongs to: the queue of commands, the reset,
the pins' levels but for those an event is about, the link's sweep. -/
abbrev State.SameRest (s t : State) : Prop :=
  t.pending = s.pending ∧ t.inReset = s.inReset ∧ t.lastReset = s.lastReset ∧ t.resetAt = s.resetAt

/-- The affirm deadline renewed at a time: Ta from it, due a quarter of Ta before (R46, R47; log 19). -/
def State.affirmFrom (s : State) (time : Nat) : Affirm :=
  { deadline := time + s.policy.ta * 1000, due := some (time + (s.policy.ta - s.policy.ta / 4) * 1000) }

/-- The request code and the payload of a row that is a request (10 10.3). -/
def requestOfRow : Instr → Option (Byte × List Byte)
  | .nop p => some (0x00, p) | .status p => some (0x01, p) | .peek p => some (0x02, p) | .setMask p => some (0x03, p)
  | .setPolicy p => some (0x04, p) | .lock p => some (0x05, p) | .restart p => some (0x06, p)
  | .identify p => some (0x07, p) | .lookup p => some (0x10, p) | .list p => some (0x11, p) | .bind p => some (0x12, p)
  | .amend p => some (0x13, p) | .retire p => some (0x14, p) | .setProfile p => some (0x20, p)
  | .readTickets p => some (0x30, p) | .readQueue p => some (0x31, p) | .hold p => some (0x32, p)
  | .setZone p => some (0x40, p) | .setSensorMap p => some (0x41, p) | .readZone p => some (0x42, p)
  | .readClaims p => some (0x50, p) | .readPlant p => some (0x60, p) | .setLimits p => some (0x61, p)
  | .recall p => some (0x70, p)
  | _ => none

/-- `t` is the part right after a reset of a kind that ended in `s`, the lock and the locked values standing as R170
leaves them (R27, R33, R72, R100, R101, R118, R136, R158, R172, R181, R182, R183). -/
abbrev State.StartedUp (s t : State) (kind : ResetKind) : Prop :=
  t.pending = s.pending ∧ t.now = s.now ∧ t.inReset = none ∧ t.lastReset = kind ∧ t.resetAt = s.now ∧
  t.records = Vector.replicate 64 UnitRecord.vacant ∧ t.governor = .recalling (s.now + 30000000) ∧
  t.link = { Link.empty with recallTx := some s.now, joinWindow := some s.now } ∧
  t.raise = RaiseAlloc.cleared s.raise.holdLine ∧
  t.shade.map = Vector.replicate 16 [] ∧ t.shade.zones = Vector.replicate 16 Zone.initial ∧
  (∀ i < 16, t.sensor i =
    { line := (s.sensor i).line, filtered := false
      timer := if (s.sensor i).line then some (true, s.now + 500000) else none }) ∧
  t.lower = Lower.initial ∧ t.line = LineCtl.cleared t.line.lup t.line.ldown (some (s.now + 200000)) ∧
  t.port.csLow = s.port.csLow ∧ t.port.receiver = (if s.port.csLow then .waitHigh else .idle) ∧
  t.port.execution = none ∧ t.port.causes = 0 ∧ t.port.mask = 0xFFF#12 ∧ t.port.attn = false ∧
  t.port.pending = { status := .done, payload := identifyPayload kind.code t.port.lock.toNat 2 0 0 }

/-- `t` has kept the lock and the locked values of `s`, or has none of them (R170). -/
abbrev State.LockedValues (s t : State) (kept : Bool) : Prop :=
  t.port.lock = kept ∧ t.line.lup = (if kept then s.line.lup else 2000) ∧
  t.line.ldown = (if kept then s.line.ldown else 2000) ∧
  t.profiles = (if kept then s.profiles else defaultProfiles) ∧
  t.policy = { Policy.default with
    clampGap := if kept then s.policy.clampGap else 150, clampMargin := if kept then s.policy.clampMargin else 50 }

/-- A row of the field link or of a timer: an event inside the part. -/
def fieldOrTimer : Instr → Bool
  | .poll _ | .joinWindow | .assign _ | .refuse | .release _ | .recallBroadcast | .zoneEnvelope _ | .cover _
  | .transactionEnd | .replyWindowClose | .fieldFrameDiscarded _ | .report .. | .join .. | .released .. | .leaseExpiry _
  | .bindTimeout _ | .releaseDeadlineExpiry _ | .affirmDue _ | .affirmDeadlineExpiry _ | .ticketExpiry _ | .holdFilterExpiry
  | .debounceExpiry _ | .arrivalExpiry _ | .clearTimeExpiry _ | .startTimerExpiry _ | .plannedEnd _ | .lineStep
  | .recallWindowExpiry => true
  | _ => false

/-- The transaction begun at a time with a frame: the frame takes its time (R28, R29, log 22). -/
abbrev Txn.begun (now : Nat) (kind : TxnKind) (frame : List Byte) : Txn :=
  { kind := kind, start := now, span := Config.frameTime frame.length, frame := frame }

/-- A frame of so many bytes, received to its end now, has begun in the reply window: not before the end of the sent frame
and not more than 300 µs after it (R29, log 22). -/
abbrev State.BegunInWindow (s : State) (x : Txn) (length : Nat) : Prop :=
  x.start + x.span + Config.frameTime length ≤ s.now ∧ s.now ≤ x.start + x.span + 300 + Config.frameTime length

/-- The deadline of the timer a row is about, while that timer runs; for the row of a received frame the earliest end of a
frame begun in the reply window, and for the end of a transaction the end of its frame or of its reply window (R29). -/
def State.deadlineOf (s : State) : Instr → Option Nat
  | .recallWindowExpiry => match s.governor with | .recalling w => some w | .running => none
  | .leaseExpiry n => (s.record n).lease
  | .bindTimeout n => if (s.record n).state = .addressed then (s.record n).bindDeadline else none
  | .releaseDeadlineExpiry n => if (s.record n).state = .retiring then (s.record n).releaseDeadline else none
  | .affirmDue n => (s.record n).affirm.bind (·.due)
  | .affirmDeadlineExpiry n => (s.record n).affirm.map (·.deadline)
  | .ticketExpiry k => (s.ticket k).map (·.expiry)
  | .holdFilterExpiry => s.raise.holdTimer
  | .debounceExpiry i => (s.sensor i).timer.map (·.2)
  | .arrivalExpiry z => if (s.zone z).state = .forecast then (s.zone z).arrival else none
  | .clearTimeExpiry z => if (s.zone z).state = .shaded then (s.zone z).clearTime else none
  | .startTimerExpiry z => match s.phase z with | .timing start => some start | _ => none
  | .plannedEnd z => match s.phase z with | .lowering c => some c.plannedEnd | _ => none
  | .lineStep => s.line.timer
  | .transactionEnd => s.link.txn.bind fun x => if x.kind = .noReply then some (x.start + x.span) else none
  | .replyWindowClose => s.link.txn.bind fun x => if x.kind = .noReply then none else some (x.start + x.span + 300)
  | .report _ payload | .join _ payload | .released _ payload => s.link.txn.bind fun x =>
    if x.kind = .noReply then none else some (x.start + x.span + Config.frameTime (payload.length + 5))
  | .fieldFrameDiscarded bytes => s.link.txn.bind fun x =>
    if x.kind = .noReply ∨ s.now < x.start + x.span ∨ s.expects bytes = true then none
    else some (x.start + x.span + Config.frameTime bytes.length)
  | .frameTimeout => match s.port.receiver with | .frame f => some (f.lastEdge + 2000) | _ => none
  | _ => none

/-- No notice has to be taken before time passes to a deadline: the deadline has been reached, or no notice waits (log
36). -/
abbrev State.mayPass (s : State) (d : Nat) : Prop := d ≤ s.now ∨ (s.raise.notices = [] ∧ s.lower.notices = [])

/-- A row of a timer of the Shade Tracker. -/
def trackerTimer : Instr → Bool
  | .debounceExpiry _ | .arrivalExpiry _ | .clearTimeExpiry _ => true
  | _ => false

/-- A row in which the arbiter begins a transaction. -/
def arbiterRow : Instr → Bool
  | .poll _ | .joinWindow | .assign _ | .refuse | .release _ | .recallBroadcast | .zoneEnvelope _ | .cover _ => true
  | _ => false

/-- What a reply window that ends without its reply leaves: the link is idle, and a JOIN WINDOW has closed its sweep
(R30, R35). -/
def State.afterMiss (x : Txn) (s : State) : State :=
  State.settle { s with link := if x.kind = .joinWindow then
      { s.link with txn := none, sweep := (s.link.sweep + 1) % 8, served := Vector.replicate 64 false }
    else { s.link with txn := none } }

/-! ### Envelopes and REPORTs -/

/-- The envelope a record stages by a claim that is taken and written: the bank, the ceiling within the rating, the rate
at least 1 kW/min (R57, R60). -/
def UnitRecord.claimEnvelope (r : UnitRecord) (ceiling rate : Nat) : Envelope :=
  { bank := match r.staged, r.active with
      | some e, _ => e.bank
      | none, some a => !a.bank
      | none, none => false
    ceiling := min ceiling r.rating
    rate := max rate 1 }

/-- A REPORT acknowledges an envelope: it applies its bank with its ceiling (R63). -/
def ReportFields.acknowledges (f : ReportFields) (e : Envelope) : Bool :=
  f.bank = some e.bank && f.ceiling = e.ceiling

/-- The envelopes of a record after its staged envelope has been acknowledged by a REPORT, where it is (R63). -/
def UnitRecord.afterAck (r : UnitRecord) (f : ReportFields) : UnitRecord :=
  if r.staged.any f.acknowledges then { r with active := r.staged, staged := none } else r

/-- The ceiling that stands newest in a record: the staged one, otherwise the active one. -/
def UnitRecord.newestCeiling (r : UnitRecord) : Option Nat := (r.staged <|> r.active).map (·.ceiling)

/-- A BOUND record after the cut claim for its ticket: the lower of the target and the higher of the start ceiling and the
output last reported, at the descent rate (R87). -/
def UnitRecord.afterCut (r : UnitRecord) (x : Ticket) (output descent : Nat) : UnitRecord :=
  { r with staged := some (r.claimEnvelope (min x.target (max x.start output)) descent) }

/-- A BOUND record after the clamp claim of a clamp level, any cut made: the lower of the effective ceiling and the level is
staged at the descent rate where it lies below the ceiling that stands newest (R68). -/
def UnitRecord.afterClamp (r : UnitRecord) (level descent : Nat) : UnitRecord :=
  let clamp := min (r.effCeiling.getD 0) level
  if clamp < r.newestCeiling.getD 0 then { r with staged := some (r.claimEnvelope clamp descent) } else r

/-- In `t` the Envelope Stager has read the bank and the ceiling of a REPORT from a record of `s` with this staged
envelope (R63 to R65); ACK MISMATCHES that comes from below its threshold to it raises HEALTH ADVISORY, and no other
cause is raised (R26). After an acknowledgement a push is asked for only by a claim of the same REPORT, and from its
moment (R50). -/
abbrev State.AckRead (s t : State) (n : Nat) (f : ReportFields) (e : Envelope) : Prop :=
  if f.acknowledges e then
    (t.record n).active = some e ∧ (t.record n).ackMismatches = (s.record n).ackMismatches ∧
    (t.tx n).push = (if (t.record n).staged.isSome then some s.now else none) ∧ t.port.causes = s.port.causes
  else
    (t.port.causes =
      if f.bank = some e.bank ∧ s.policy.ackThr ≠ 0 ∧ (s.record n).ackMismatches < s.policy.ackThr ∧
          min ((s.record n).ackMismatches + 1) 255 = s.policy.ackThr then s.port.causes ||| 0x020#12
      else s.port.causes) ∧
    (t.record n).active = (s.record n).active ∧ (t.record n).staged.isSome = true ∧
    (t.record n).ackMismatches =
      (if f.bank = some e.bank then min ((s.record n).ackMismatches + 1) 255 else (s.record n).ackMismatches) ∧
    (f.bank = some e.bank → (t.tx n).push.isSome = true)

/-- In `t` the Raise Allocator has taken a REPORT of a BOUND inverter of `s`, with this effective ceiling: the
completion of its ticket (R85), the update or the withdrawal of its entry (R75), or a new entry at the tail (R74), which
an evaluation may have granted at once (R80). Where Lup leaves nothing free no grant is made, and the queue is told
whole. -/
abbrev State.RaiseTaken (s t : State) (n : Nat) (f : ReportFields) (ceiling : Nat) : Prop :=
  let r := s.record n
  let wanted := min f.available r.rating - ceiling
  let asks := decide (r.rating * s.policy.raiseThr / 1000 < wanted)
  let done := ((s.ticketOf n).bind s.ticket).any fun x => decide (x.target ≤ f.output + r.rating * 10 / 1000)
  let enters := asks && s.isRunning && !r.demoted && s.zoneClear r && decide (0 < s.upRate r) &&
    ((s.ticketOf n).isNone || done)
  (∀ k ∈ s.ticketOf n, if done then ∀ y ∈ t.ticket k, s.raise.nextSeq ≤ y.seq else t.ticket k = s.ticket k) ∧
  (s.queued n = true → asks = true → t.raise = { s.raise with
    queue := s.raise.queue.map fun e => if e.slot = n then { e with wanted := wanted } else e }) ∧
  (s.queued n = true → asks = false → t.queued n = false ∧
    (s.line.lup ≤ s.raise.riseClaimed →
      t.raise = { s.raise with queue := s.raise.queue.filter fun e => e.slot ≠ n })) ∧
  (s.queued n = false → enters = false → t.queued n = false ∧ (done = false → t.raise = s.raise)) ∧
  (s.queued n = false → enters = true →
    (if t.queued n then t.raise.queue.getLast? = some { slot := n, wanted := wanted, time := s.now }
      else ∃ k ∈ t.ticketOf n, ∃ y ∈ t.ticket k, y.start = ceiling ∧ y.granted = s.now ∧
        y.target = min (ceiling + max 1 (min wanted (y.rate * s.policy.ticketSpan / 60))) r.rating) ∧
    (s.line.lup ≤ s.raise.riseClaimed → done = false → t.raise = { s.raise with
      queue := s.raise.queue ++ [{ slot := n, wanted := wanted, time := s.now }] }))

/-! ### The notices of the Shade Tracker -/

/-- The notice the Tracker gives of a change of a zone record, by the table of R113: `old` to `new`, a return from
FORECAST being a cancelled forecast (R110). -/
def noticeOf (z : Nat) (old new : Zone) : List Notice :=
  match old.state, new.state with
  | .clear, .forecast => [.leftClear z (new.arrival.getD 0)]
  | .forecast, .forecast => if old.arrival = new.arrival then [] else [.arrivalChanged z (new.arrival.getD 0)]
  | .forecast, .shaded => [.enteredShaded z]
  | .forecast, .clear => [.returnedClear z true]
  | .shaded, .clear => [.returnedClear z false]
  | _, _ => []

/-- `t` is `s` at a time, with other zones or sensors and these notices given: each waits for the Lowering Allocator,
and those of a zone that has left or entered CLEAR for the Raise Allocator too (R113). -/
abbrev State.Gives (s t : State) (now : Nat) (xs : List Notice) : Prop :=
  t = State.settle { s with
    now := now
    shade := t.shade
    raise := { s.raise with notices := s.raise.notices ++ xs.filter fun x => match x with
      | .leftClear .. | .returnedClear .. => true
      | _ => false }
    lower := { s.lower with notices := s.lower.notices ++ xs } }

/-- `u` is `s` after the cuts and removals for a zone that has left CLEAR, with no evaluation run yet (R84, R87, R88): the
tickets of the BOUND inverters of the zone are gone and their rates have left rise claimed, their cut envelopes are staged
and carried by push POLLs (R60, R61), and their entries have left the queue. -/
abbrev State.ZoneCut (s u : State) (z : Nat) : Prop :=
  let member := fun n => (s.record n).boundInverter && (s.record n).inZone z
  let rates := allSixteen.map fun k => (((s.ticket k).filter fun x => member x.slot).map (·.rate)).getD 0
  u = { s with
    records := u.records
    link := { s.link with slotTx := u.link.slotTx }
    raise := { s.raise with
      queue := s.raise.queue.filter fun e => !member e.slot
      tickets := u.raise.tickets
      riseClaimed := s.raise.riseClaimed - rates.sum } } ∧
  (∀ k < 16, u.ticket k = (s.ticket k).filter fun x => !member x.slot) ∧
  ∀ n < 64, let r := s.record n
    let cut := match if member n then (s.ticketOf n).bind s.ticket else none with
      | some x => r.afterCut x r.lastOutput (s.descentRate r)
      | none => r
    u.record n = cut ∧
    u.tx n = { s.tx n with push := if cut.staged = r.staged then (s.tx n).push else (s.tx n).push <|> some s.now }

/-- Zone `x` stands before zone `y` in the wait list: by arrival time as it stands, then by number (R125); a zone without an
arrival time stands behind those that have one (the model's choice, log 33). -/
abbrev State.StandsBefore (s : State) (x y : Nat) : Prop :=
  ((s.zone y).arrival.isSome = true → (s.zone x).arrival.isSome = true) ∧
  (∀ b ∈ (s.zone x).arrival, ∀ c ∈ (s.zone y).arrival, b < c ∨ (b = c ∧ x < y)) ∧
  ((s.zone x).arrival = none → (s.zone y).arrival = none → x < y)

/-! ### The start of a lowering -/

/-- A zone has requested a claim, and an evaluation has run: it waits, it is lowered by a granted claim, or it is EMPTY
(R123, R126). -/
def State.requested (s : State) (z : Nat) : Bool :=
  match s.phase z with
  | .waiting | .empty | .lowering _ => true
  | .idle | .timing _ | .lowered | .deferred => false

/-- How long before the arrival the start time lies: the estimated duration of the plan and the start margin (R121). -/
def State.startLead (s : State) (z : Nat) : Nat :=
  s.planDuration (s.planMembers z) * 1000000 + s.policy.startMargin * 1000000

/-- In `t` a zone has acted on a start time worked in `s` from an arrival: it has requested where that time is past at
`now` or `early` calls for it, and its start timer runs to it otherwise (R121, R122). -/
abbrev State.Starts (s t : State) (now z arrival : Nat) (early : Bool) : Prop :=
  if arrival < now + s.startLead z ∨ early = true then t.requested z = true
  else t.phase z = .timing (arrival - s.startLead z)

/-- In `t` every zone that stood in TIMING in `s` has requested, or is DEFERRED while RECALLING, where `all` has it so,
and stands in TIMING with its start time otherwise (R123). -/
abbrev State.TimingZones (s t : State) (all : Prop) [Decidable all] : Prop :=
  ∀ z < 16, ∀ d, s.phase z = .timing d →
    if all then (if s.governor = .running then t.requested z = true else t.phase z = .deferred) else t.phase z = .timing d

/-- In `t` the entries of a slot whose record has become VACANT are marked freed in the live claims of `s`, and no zone
changes otherwise (R4, R132). -/
abbrev State.EntriesFreed (s t : State) (n : Nat) : Prop :=
  ∀ z < 16, t.phase z = match s.phase z with
    | .lowering c => .lowering { c with units := c.units.map fun u => if u.slot = n then { u with freed := true } else u }
    | p => p

/-- Effective hold has become yes in `t` (R87, R94, R95): the tickets of exempt records stand; every other ticket is
cut, its cut ceiling staged at the descent rate and carried by a push POLL (R60, R61); the queue entries are kept, but
for those of exempt records that are granted; and the evaluation has run to its end: another grants nothing. -/
abbrev State.HoldCuts (s t : State) : Prop :=
  (∀ k < 16, ∀ x ∈ s.ticket k, let r := s.record x.slot
    let e := r.claimEnvelope (min x.target (max x.start r.lastOutput)) (s.descentRate r)
    if r.exempt = true then t.ticket k = some x
    else t.ticketOf x.slot = none ∧ t.record x.slot = { r with staged := some e } ∧
      (t.tx x.slot).push = if r.staged = some e then (s.tx x.slot).push else (s.tx x.slot).push <|> some t.now) ∧
  (∀ e ∈ s.raise.queue, e ∈ t.raise.queue ∨ (s.record e.slot).exempt = true ∧ (t.ticketOf e.slot).isSome = true) ∧
  t.grantEvaluation = t

/-- Early lowering is on and the cover condition is not FULL (R121). -/
def State.lowersEarly (s : State) : Bool := s.policy.early && s.line.condition ≠ .full

/-! ### Invariants of the Raise Allocator and the Lowering Allocator -/

/-- The sum of the rates of the live tickets. -/
def State.ticketRates (s : State) : Nat := (allSixteen.map fun k => ((s.ticket k).map (·.rate)).getD 0).sum

/-- Rise claimed is the sum of the rates of the live tickets and is within Lup (R79); the sequence numbers tell the live
tickets apart and are behind the next one (log 28). -/
abbrev State.RiseOk (s : State) : Prop :=
  s.raise.riseClaimed = s.ticketRates ∧ s.raise.riseClaimed ≤ s.line.lup ∧
  ∀ j < 16, ∀ x ∈ s.ticket j, x.seq < s.raise.nextSeq ∧ ∀ k < 16, ∀ y ∈ s.ticket k, y.seq = x.seq → k = j

/-- Each live ticket belongs to a BOUND inverter, no two to one slot (R78); each entry of the queue belongs to a BOUND
inverter that is not demoted and holds no ticket, no two to one slot; while RECALLING the queue is empty (R73). -/
abbrev State.QueueOk (s : State) : Prop :=
  (∀ j < 16, ∀ t ∈ s.ticket j, (s.record t.slot).boundInverter = true ∧
    ∀ k < 16, ∀ u ∈ s.ticket k, u.slot = t.slot → k = j) ∧
  (∀ e ∈ s.raise.queue, (s.record e.slot).boundInverter = true ∧ (s.record e.slot).demoted = false ∧
    s.ticketOf e.slot = none) ∧
  (s.raise.queue.map (·.slot)).Nodup ∧
  (s.governor ≠ .running → s.raise.queue = [])

/-- The rate of the claim of a phase. -/
def Phase.rate : Phase → Nat
  | .lowering c => c.rate
  | _ => 0

/-- The sum of the rates of the granted lowering claims. -/
def State.claimRates (s : State) : Nat := (allSixteen.map fun z => (s.phase z).rate).sum

/-- The sensor map: at most 4 entries to a sensor, zones 0 to 15, each once, leads of 1 s to 255 s (R104). -/
abbrev State.MapOk (s : State) : Prop :=
  ∀ i < 16, (look s.shade.map i []).length ≤ 4 ∧
    (∀ e ∈ look s.shade.map i [], e.zone ≤ 15 ∧ 1 ≤ e.lead ∧ e.lead ≤ 255) ∧
    ((look s.shade.map i []).map (·.zone)).Nodup

/-- A zone stands in the wait list, once, exactly while it is WAITING (R119, R125). -/
abbrev State.WaitOk (s : State) : Prop :=
  (∀ z ∈ s.lower.waitList, s.phase z = .waiting) ∧ (∀ z < 16, s.phase z = .waiting → z ∈ s.lower.waitList) ∧
  s.lower.waitList.Nodup

/-- The granted claim of a zone. -/
def State.claim (s : State) (z : Nat) : Option Claim :=
  match s.phase z with
  | .lowering c => some c
  | _ => none

/-- Fall claimed is the sum of the rates of the granted claims and is within Ldown (R127); the sequence numbers tell the
claims apart and are behind the next one (log 28). -/
abbrev State.FallOk (s : State) : Prop :=
  s.lower.fallClaimed = s.claimRates ∧ s.lower.fallClaimed ≤ s.line.ldown ∧
  ∀ y < 16, ∀ c ∈ s.claim y, c.seq < s.lower.nextSeq ∧ ∀ z < 16, ∀ d ∈ s.claim z, d.seq = c.seq → z = y

/-- The zone a notice is of (R113). -/
def Notice.zone : Notice → Nat
  | .leftClear z _ | .returnedClear z _ | .arrivalChanged z _ | .enteredShaded z => z

/-- Every notice that waits for the Lowering Allocator is of one of the sixteen zones (R104, R113). -/
abbrev State.NoticesOk (s : State) : Prop := ∀ x ∈ s.lower.notices, x.zone < 16

/-- A zone that is IDLE, or is not, is IDLE once these notices have been taken (R121, R130). -/
def idleAfter (z : Nat) (idle : Bool) : List Notice → Bool
  | [] => idle
  | .leftClear y _ :: rest => idleAfter z (idle && y ≠ z) rest
  | .returnedClear y _ :: rest => idleAfter z (idle || y = z) rest
  | .arrivalChanged .. :: rest | .enteredShaded _ :: rest => idleAfter z idle rest

/-- A zone is IDLE exactly while it is CLEAR (R119), as soon as the Lowering Allocator has taken the notices that wait
for it (R114). -/
abbrev State.IdleOk (s : State) : Prop :=
  ∀ z < 16, idleAfter z (s.phase z = .idle) s.lower.notices = decide ((s.zone z).state = .clear)

/-- The rates of the live tickets granted no later than the one with a sequence number, summed. -/
def State.ticketRatesUpTo (s : State) (seq : Nat) : Nat :=
  (allSixteen.map fun k => ((s.ticket k).map fun x => if x.seq ≤ seq then x.rate else 0).getD 0).sum

/-- The rates of the claims granted no later than the one with a sequence number, summed. -/
def State.claimRatesUpTo (s : State) (seq : Nat) : Nat :=
  (allSixteen.map fun z => ((s.claim z).map fun c => if c.seq ≤ seq then c.rate else 0).getD 0).sum

/-! ### Invariants of the Unit Roster and the Envelope Stager -/

/-- No two records that are not VACANT have one serial (R39). -/
abbrev State.SerialsOk (s : State) : Prop :=
  ∀ m < 64, ∀ n < 64, (s.record m).state ≠ .vacant → (s.record n).state ≠ .vacant →
    (s.record m).serial = (s.record n).serial → m = n

/-- A record that is not VACANT has the kind its slot has under the reserved slot count (R2). -/
abbrev State.KindsOk (s : State) : Prop :=
  ∀ n < 64, (s.record n).state ≠ .vacant → (s.record n).kind = slotKind s.policy.nr n

/-- The envelopes of one record (R57): the rating is at most 4000 kW; the staged bank is not the active one; ceilings
are within the rating and rates 1 to 4000 kW/min; only an inverter holds any, none while ADDRESSED, RECALLED or VACANT,
a staged one only in BOUND or LAPSED. -/
abbrev UnitRecord.EnvelopesOk (r : UnitRecord) : Prop :=
  r.rating ≤ 4000 ∧ (∀ a ∈ r.active, ∀ e ∈ r.staged, e.bank ≠ a.bank) ∧
  (∀ a ∈ r.active, a.ceiling ≤ r.rating ∧ 1 ≤ a.rate ∧ a.rate ≤ 4000) ∧
  (∀ e ∈ r.staged, e.ceiling ≤ r.rating ∧ 1 ≤ e.rate ∧ e.rate ≤ 4000 ∧ (r.state = .bound ∨ r.state = .lapsed)) ∧
  ((r.kind = .storage ∨ r.state = .addressed ∨ r.state = .recalled ∨ r.state = .vacant) →
    r.active = none ∧ r.staged = none)

/-- The rates in the unit list of a claim are at most 4000 kW/min, so that its cut claims are in the range of R57 (R127,
R131). -/
def Phase.unitRatesOk : Phase → Bool
  | .lowering c => c.units.all fun u => decide (u.rate ≤ 4000)
  | _ => true

/-- The envelopes of every record are as R57 has them, and the unit lists of the claims keep them so. -/
abbrev State.EnvelopesOk (s : State) : Prop :=
  (∀ n < 64, (s.record n).EnvelopesOk) ∧ ∀ z < 16, (s.phase z).unitRatesOk = true

/-! ### Invariants of the Shade Tracker, the Line Controller, the link, the port and the settings -/

/-- What a zone holds in each of its states (R107, R109, R110): its sources stand in ascending sensor order, one to a
sensor; a cleared mark only in SHADED, where the clear time is present exactly while every source is marked. -/
abbrev Zone.Ok (x : Zone) : Prop :=
  (x.sources.map (·.sensor)).Pairwise (· < ·) ∧
  (x.state = .clear → x.sources = [] ∧ x.arrival = none ∧ x.clearTime = none) ∧
  (x.state = .forecast → x.sources ≠ [] ∧ x.arrival = earliestArrival x.sources ∧ x.clearTime = none ∧
    ∀ y ∈ x.sources, y.cleared = false) ∧
  (x.state = .shaded → x.sources ≠ [] ∧ x.arrival ≠ none ∧ (x.clearTime.isSome = true ↔ ∀ y ∈ x.sources, y.cleared = true))

/-- Every zone holds what its state has it hold. -/
abbrev State.ZonesOk (s : State) : Prop := ∀ z < 16, (s.zone z).Ok

/-- Outside a reset a debounce timer runs exactly while the line differs from its filtered level, with the level of the
line as its candidate (R102). -/
abbrev State.SensorsOk (s : State) : Prop :=
  s.inReset = none → ∀ i < 16,
    if (s.sensor i).line = (s.sensor i).filtered then (s.sensor i).timer = none
    else (s.sensor i).timer.map (·.1) = some (s.sensor i).line

/-- The cover condition is the one R150 gives. -/
abbrev State.CoverOk (s : State) : Prop := s.line.condition = s.conditionNow

/-- ATTN is high exactly while a cause is both set and enabled (R183). -/
abbrev State.AttnOk (s : State) : Prop := s.port.attn = attnLevel s.port.causes s.port.mask

/-- Effective hold is the filtered level or the request flag (R94). -/
abbrev State.HoldOk (s : State) : Prop := s.raise.effHold = (s.raise.holdFiltered || s.raise.holdFlag)

/-- A transaction of the JOIN WINDOW is in progress. -/
def State.inJoinWindow (s : State) : Bool :=
  match s.link.txn with
  | some t => t.kind = .joinWindow
  | none => false

/-- The slot is due in the current sweep and not served: ADDRESSED, BOUND or LAPSED in every sweep, DORMANT in sweep 0
only (R33). -/
abbrev State.DueUnserved (s : State) (n : Nat) : Prop :=
  ((s.record n).state = .addressed ∨ (s.record n).state = .bound ∨ (s.record n).state = .lapsed ∨
    ((s.record n).state = .dormant ∧ s.link.sweep = 0)) ∧ look s.link.served n false = false

/-- Outside a reset one routine POLL is pending, to the lowest-numbered due slot that is not served, and the JOIN WINDOW
is pending exactly while there is no such slot and it is not being held (R33, R34, R35). -/
abbrev State.SweepOk (s : State) : Prop :=
  s.inReset = none →
    (∀ n < 64, (s.tx n).routine.isSome = true ↔ s.DueUnserved n ∧ ∀ m < n, ¬ s.DueUnserved m) ∧
    (s.link.joinWindow.isSome = true ↔ (∀ n < 64, ¬ s.DueUnserved n) ∧ s.inJoinWindow = false)

/-- Every setting lies in its range: the settings of SET POLICY, the plant limits, the profile indices and the shade
floors (09 9.5, R54, R115, R152). -/
abbrev State.SettingsOk (s : State) : Prop :=
  (∀ code ∈ policyCodes, policyInRange code (s.policy.get code) = true) ∧
  (limitOk s.line.lup = true ∧ limitOk s.line.ldown = true) ∧
  (∀ p < 4, (s.profile p).up ≤ 15 ∧ (s.profile p).down ≤ 15) ∧
  (∀ z < 16, (s.zone z).floor ≤ 1000)

end Sys2Proof.Machine
end

