-- ==== Sys2Proof/Certificates/Slice0/Obligations.lean ====
section
/-! DEFINITION. The statements for the provers. Times are in µs. A statement whose clause rests on a choice of the model
names the log entry. -/

section

open Sys2Proof Sys2Proof.Machine

/-! ### Steps -/

/-- A step takes the command at the front of the queue and runs it on the state with the queue's rest. -/
def Obligations.StepRunsTheFrontCommand : Prop :=
  ∀ (c : Instr) (rest : List Instr) (s : State),
    s.pending = c :: rest → step s = exec c { s with pending := rest }

/-- The model's choice (log 3, log 4, log 6): on an empty queue one due event is taken, or 1 µs passes with none due;
the notices that wait for an allocator are due (R113, R114). A timer whose deadline lies ahead expires after the notices
given have been taken, the Raise Allocator's first (log 14, log 36). A transmission that is not the arbiter's choice, a
timer that does not run, a window or an execution that is not open change nothing; during a reset no row of the field
link or of a timer changes anything. Nor does UNKNOWN with a code that names a request, CHECK ERROR with a frame that
passes its check or has no byte, a pin whose level stays as it is, or the end of a reset outside one. -/
def Obligations.EmptyQueueAndIdleCommands : Prop :=
  (∀ s : State, s.pending = [] → s.dueEvents = [] → step s = .next { s with now := s.now + 1 }) ∧
  (∀ s : State, s.pending = [] → s.dueEvents ≠ [] →
    ∃ c ∈ s.dueEvents, step s = State.work c { s with choices := s.choices + 1 }) ∧
  (∀ s : State, s.inReset = none →
    (.raiseNotice ∈ s.dueEvents ↔ s.raise.notices ≠ []) ∧ (.lowerNotice ∈ s.dueEvents ↔ s.lower.notices ≠ []) ∧
    State.work .raiseNotice s = .next s.takeRaiseNotice.settle ∧
    State.work .lowerNotice s = .next s.takeLowerNotice.settle ∧
    (s.raise.notices ≠ [] → s.takeNotices = s.takeRaiseNotice.takeNotices) ∧
    (s.raise.notices = [] → s.lower.notices ≠ [] → s.takeNotices = s.takeLowerNotice.takeNotices) ∧
    (s.raise.notices = [] → s.lower.notices = [] → s.takeNotices = s)) ∧
  (∀ (s : State) (c : Instr) (d : Nat), s.inReset = none → s.deadlineOf c = some d → s.now < d →
    exec c s = if (s.takeNotices.deadlineOf c).isSome then exec c s.takeNotices else .next s) ∧
  (∀ (s : State) (n : Nat),
    (s.arbiterChoice ≠ some (.poll n) → exec (.poll n) s = .next s) ∧
    (s.arbiterChoice ≠ some .joinWindow → exec .joinWindow s = .next s) ∧
    (s.arbiterChoice ≠ some (.assign n) → exec (.assign n) s = .next s) ∧
    (s.arbiterChoice ≠ some .refuse → exec .refuse s = .next s) ∧
    (s.arbiterChoice ≠ some (.release n) → exec (.release n) s = .next s) ∧
    (s.arbiterChoice ≠ some .recall → exec .recallBroadcast s = .next s) ∧
    ((∀ e ∈ s.link.zoneEnvs, e.zone = n → s.arbiterChoice ≠ some (.zoneEnv e)) → exec (.zoneEnvelope n) s = .next s) ∧
    (s.arbiterChoice ≠ some (.cover n) → exec (.cover n) s = .next s)) ∧
  (∀ (s : State) (n : Nat),
    ((s.record n).lease = none → exec (.leaseExpiry n) s = .next s) ∧
    (((s.record n).state ≠ .addressed ∨ (s.record n).bindDeadline = none) → exec (.bindTimeout n) s = .next s) ∧
    (((s.record n).state ≠ .retiring ∨ (s.record n).releaseDeadline = none) →
      exec (.releaseDeadlineExpiry n) s = .next s) ∧
    ((s.record n).affirm.bind (·.due) = none → exec (.affirmDue n) s = .next s) ∧
    ((s.record n).affirm = none → exec (.affirmDeadlineExpiry n) s = .next s) ∧
    (s.ticket n = none → exec (.ticketExpiry n) s = .next s) ∧
    (s.raise.holdTimer = none → exec .holdFilterExpiry s = .next s) ∧
    ((s.sensor n).timer = none → exec (.debounceExpiry n) s = .next s) ∧
    (((s.zone n).state ≠ .forecast ∨ (s.zone n).arrival = none) → exec (.arrivalExpiry n) s = .next s) ∧
    (((s.zone n).state ≠ .shaded ∨ (s.zone n).clearTime = none) → exec (.clearTimeExpiry n) s = .next s) ∧
    ((s.phase n).code ≠ 1 → exec (.startTimerExpiry n) s = .next s) ∧
    ((s.phase n).code ≠ 3 → exec (.plannedEnd n) s = .next s) ∧
    (s.line.timer = none → exec .lineStep s = .next s) ∧
    (s.governor = .running → exec .recallWindowExpiry s = .next s)) ∧
  (∀ s : State,
    ((∀ x ∈ s.link.txn, x.kind = .noReply) → exec .replyWindowClose s = .next s) ∧
    ((∀ x ∈ s.link.txn, x.kind ≠ .noReply) → exec .transactionEnd s = .next s) ∧
    (s.port.execution = none → exec .executionComplete s = .next s ∧ exec .notReady s = .next s) ∧
    ((s.port.receiver = .idle ∨ s.port.receiver = .abandoned ∨ s.port.receiver = .waitHigh) →
      exec .frameTimeout s = .next s)) ∧
  (∀ (s : State) (c : Instr), s.inReset ≠ none → fieldOrTimer c = true → exec c s = .next s) ∧
  (∀ (s : State) (code : Byte) (p : List Byte), (requestOf code).isSome = true → exec (.unknown code p) s = .next s) ∧
  (∀ (s : State) (bytes : List Byte), bytes = [] ∨ (parseRequest bytes).isSome = true →
    exec (.checkError bytes) s = .next s) ∧
  (∀ s : State, (s.port.csLow = true → exec .chipSelectFall s = .next s ∧ exec .notReady s = .next s) ∧
    (s.port.csLow = false → s.port.receiver = .idle → exec .chipSelectRise s = .next s) ∧
    (∀ bit, exec (.clockEdge s.port.sck bit) s = .next s) ∧
    exec (.holdInputChange s.raise.holdLine) s = .next s ∧
    (∀ i < 16, exec (.sensorLineChange i (s.sensor i).line) s = .next s) ∧
    (s.inReset = none → exec .resetEnd s = .next s))

/-- Every command answers a next state in every state, and leaves the queue as it was. -/
def Obligations.EveryCommandAnswersNext : Prop :=
  ∀ (c : Instr) (s : State), ∃ t, exec c s = .next t ∧ t.pending = s.pending

/-! ### Requests of the Supervisor Port (spec/09) -/

/-- STATUS answers the causes and the mask and clears the causes (R184); PEEK answers the same and clears nothing
(R185). -/
def Obligations.StatusClearsAndPeekReads : Prop :=
  ∀ s : State,
    let payload := flagBytes s.port.causes ++ flagBytes s.port.mask
    (s.takesRequest 0x01 [] = true →
      exec (.status []) s = .next
        { s with
          port := { s.executing (some { status := .done, payload := payload }) with causes := 0, attn := false }
          link := s.settle.link }) ∧
    (s.takesRequest 0x02 [] = true → exec (.peek []) s = .next (s.answered .done payload))

/-- SET MASK writes the whole mask where it carries one and works ATTN afresh; bits above 11 are not read (R186). -/
def Obligations.SetMaskWritesTheMask : Prop :=
  ∀ s : State,
    (s.takesRequest 0x03 [] = true → s.AttnOk →
      exec (.setMask []) s = .next (s.answered .done (flagBytes s.port.mask ++ flagBytes s.port.causes))) ∧
    (∀ hi lo : Byte, s.takesRequest 0x03 [0x01, hi, lo] = true →
      exec (.setMask [0x01, hi, lo]) s =
        .next (let m := BitVec.ofNat 12 (hi.toNat * 256 + lo.toNat)
          { s with
            port := { s.executing (some { status := .done, payload := flagBytes m ++ flagBytes s.port.causes }) with
                      mask := m, attn := s.port.causes &&& m != 0 }
            link := s.settle.link }))

/-- An accepted SET POLICY writes every part it carries and no other setting, and answers all settings (R187); where no
setting changes that a block is told of, nothing else changes. A changed reserve floor clips the share that the next
COVER to a usable converter would carry to the counted limits (R142). A changed minimum claim rate runs grant evaluation
and claim evaluation (R99, R134). A changed caution level works the cover condition afresh: a change of it raises COVER
CONDITION, and with early lowering on one to CAUTION or NONE, as early lowering turned on while it is not FULL, makes
every zone in TIMING request (R123, R151). The order of the notices is the model's choice (log 23). -/
def Obligations.SetPolicyWritesItsParts : Prop :=
  ∀ (s : State) (p : List Byte) (parts : List Part),
    s.takesRequest 0x04 p = true → policyForm p = some parts → (s.port.lock && carriesClamp parts) = false →
    partsInRange parts = true → s.kindChangeOk (s.policy.write parts).nr = true →
    ∃ t, exec (.setPolicy p) s = .next t ∧ s.Responds t .done (s.policy.write parts).answer ∧
      t.policy = s.policy.write parts ∧
      (∀ code ∈ policyCodes, t.policy.get code = (partNat parts (byte code)).getD (s.policy.get code)) ∧
      t = { s with policy := t.policy, records := t.records, link := t.link, raise := t.raise, lower := t.lower,
                   line := t.line, port := t.port } ∧
      (∀ n < 64, let r := s.record n
        let next := match (s.tx n).cover with | some c => c.share | none => (s.lastShare n).getD 0
        let clipped := max (min next (r.countedDischarge t.policy.reserve : Int)) (-(r.countedChargeLimit : Int))
        (t.tx n).cover = if t.policy.reserve ≠ s.policy.reserve ∧ r.usable = true ∧ clipped ≠ next then
            some { share := clipped, entry := match (s.tx n).cover with | some c => c.entry | none => s.now }
          else (s.tx n).cover) ∧
      t.line = { s.line with condition := t.line.condition } ∧ t.port.mask = s.port.mask ∧ t.port.lock = s.port.lock ∧
      t.line.condition = (if t.policy.caution = s.policy.caution then s.line.condition else t.conditionNow) ∧
      t.port.causes =
        (if t.line.condition = s.line.condition then s.port.causes else s.port.causes ||| 0x200#12) ∧
      (s.WaitOk → s.TimingZones t (t.policy.early = true ∧ t.line.condition ≠ .full ∧
        (s.policy.early = false ∨ t.line.condition ≠ s.line.condition))) ∧
      (s.policy.caution = t.policy.caution → s.policy.reserve = t.policy.reserve →
        (t.policy.early = true → s.policy.early = true) →
        t = if s.policy.minClaim = t.policy.minClaim then
            { s.answered .done (s.policy.write parts).answer with policy := t.policy }
          else
            let u : State := { s with policy := t.policy, port := { s.port with csLow := false, receiver := .idle } }
            State.settle { u.grantEvaluation.claimEvaluation with
              port := s.executing (some { status := .done, payload := (s.policy.write parts).answer }) })

/-- LOCK sets the grid-code lock and answers it with the locked values (R189). Widths that no list gives are the model's
(log 9). -/
def Obligations.LockSetsAndAnswers : Prop :=
  ∀ s : State, s.takesRequest 0x05 [] = true →
    exec (.lock []) s = .next { s with
      port := { s.executing (some { status := .done, payload :=
          0x01 :: (beBytes 4 s.line.lup ++ beBytes 4 s.line.ldown ++
            s.profiles.toList.flatMap (fun x => [byte x.up, byte x.down]) ++
            beBytes 2 s.policy.clampGap ++ beBytes 2 s.policy.clampMargin) }) with lock := true }
      link := s.settle.link }

/-- Requests refused in the order of their checks change nothing (R9, R20, R23, R55, R115, R153, R187). -/
def Obligations.RefusalsFollowTheOrderOfChecks : Prop :=
  (∀ (s : State) (p : List Byte) (parts : List Part), s.takesRequest 0x04 p = true → policyForm p = some parts →
    ((s.port.lock && carriesClamp parts) = true → exec (.setPolicy p) s = .next (s.answered .locked [])) ∧
    ((s.port.lock && carriesClamp parts) = false → partsInRange parts = false →
      exec (.setPolicy p) s = .next (s.answered .range [])) ∧
    ((s.port.lock && carriesClamp parts) = false → partsInRange parts = true →
      s.kindChangeOk (s.policy.write parts).nr = false →
      exec (.setPolicy p) s = .next (s.answered .wrongState []))) ∧
  (∀ (s : State) (p : List Byte) (a : LimitsArgs), s.takesRequest 0x61 p = true → limitsForm p = some a →
    (((a.lup.isSome || a.ldown.isSome) && s.port.lock) = true →
      exec (.setLimits p) s = .next (s.answered .locked [])) ∧
    (((a.lup.isSome || a.ldown.isSome) && s.port.lock) = false → (a.lup.all limitOk && a.ldown.all limitOk) = false →
      exec (.setLimits p) s = .next (s.answered .range []))) ∧
  (∀ (s : State) (p : List Byte) (a : ProfileArgs), s.takesRequest 0x20 p = true → profileForm p = some a →
    (3 < a.profile → exec (.setProfile p) s = .next (s.answered .range [])) ∧
    (a.profile ≤ 3 → ((a.up.isSome || a.down.isSome) && s.port.lock) = true →
      exec (.setProfile p) s = .next (s.answered .locked [])) ∧
    (a.profile ≤ 3 → ((a.up.isSome || a.down.isSome) && s.port.lock) = false →
      ((∃ i ∈ a.up, 15 < i) ∨ (∃ i ∈ a.down, 15 < i)) → exec (.setProfile p) s = .next (s.answered .range []))) ∧
  (∀ (s : State) (p : List Byte) (a : ZoneArgs), s.takesRequest 0x40 p = true → zoneForm p = some a →
    (15 < a.zone → exec (.setZone p) s = .next (s.answered .range [])) ∧
    (a.zone ≤ 15 → (∃ f ∈ a.floor, 1000 < f) → exec (.setZone p) s = .next (s.answered .range []))) ∧
  (∀ (s : State) (p : List Byte) (a : BindArgs), s.takesRequest 0x12 p = true → bindForm p = some a →
    (63 < a.slot → exec (.bind p) s = .next (s.answered .range [])) ∧
    (a.slot ≤ 63 → (s.record a.slot).state ≠ .addressed → exec (.bind p) s = .next (s.answered .wrongState [])) ∧
    (a.slot ≤ 63 → (s.record a.slot).state = .addressed → a.parts.suits (s.record a.slot).kind = false →
      exec (.bind p) s = .next (s.answered .range []))) ∧
  (∀ (s : State) (p : List Byte) (a : AmendArgs), s.takesRequest 0x13 p = true → amendForm p = some a →
    (63 < a.slot → exec (.amend p) s = .next (s.answered .range [])) ∧
    (a.slot ≤ 63 → (s.record a.slot).state = .vacant → exec (.amend p) s = .next (s.answered .noSuch [])) ∧
    (a.slot ≤ 63 → (s.record a.slot).state ≠ .vacant → a.revision ≠ (s.record a.slot).revision →
      exec (.amend p) s = .next (s.answered .stale [])) ∧
    (a.slot ≤ 63 → a.revision = (s.record a.slot).revision →
      ((s.record a.slot).state = .addressed ∨ (s.record a.slot).state = .retiring ∨
        (s.record a.slot).state = .recalled) → exec (.amend p) s = .next (s.answered .wrongState [])) ∧
    (a.slot ≤ 63 → a.revision = (s.record a.slot).revision →
      ((s.record a.slot).state = .bound ∨ (s.record a.slot).state = .dormant ∨ (s.record a.slot).state = .lapsed) →
      a.parts.amends (s.record a.slot).kind = false → exec (.amend p) s = .next (s.answered .range []))) ∧
  (∀ (s : State) (n : Byte), s.takesRequest 0x14 [n] = true →
    (63 < n.toNat → exec (.retire [n]) s = .next (s.answered .range [])) ∧
    (n.toNat ≤ 63 → (s.record n.toNat).state = .vacant → exec (.retire [n]) s = .next (s.answered .noSuch [])) ∧
    (n.toNat ≤ 63 → (s.record n.toNat).state = .retiring → exec (.retire [n]) s = .next (s.answered .busy [])))

/-- IDENTIFY, LOOKUP and LIST answer and change nothing (R18, R19, R191). Widths that no list gives are the model's (log
9). -/
def Obligations.RosterReadersAnswer : Prop :=
  (∀ s : State, s.takesRequest 0x07 [] = true →
    exec (.identify []) s = .next (s.answered .done
      (identifyPayload s.lastReset.code s.port.lock.toNat s.policy.nr s.governor.code
        ((s.now - s.resetAt) / 1000000)))) ∧
  (∀ (s : State) (n : Byte), s.takesRequest 0x10 [0, n] = true →
    exec (.lookup [0, n]) s =
      .next (if n.toNat ≤ 63 then s.answered .done (s.lookupRecord n.toNat) else s.answered .range [])) ∧
  (∀ (s : State) (a b c d e f : Byte), s.takesRequest 0x10 [1, a, b, c, d, e, f] = true →
    exec (.lookup [1, a, b, c, d, e, f]) s =
      .next (match s.slotOfSerial (BitVec.ofNat 48 (beNat [a, b, c, d, e, f])) with
        | some n => s.answered .done (s.lookupRecord n)
        | none => s.answered .noSuch [])) ∧
  (∀ (s : State) (code : Byte) (st : RecState), s.takesRequest 0x11 [0, code] = true → RecState.ofCode code.toNat = some st →
    exec (.list [0, code]) s =
      .next (s.answered .done (listPayload (allSlots.filter fun n => (s.record n).state = st)))) ∧
  (∀ (s : State) (code : Byte), s.takesRequest 0x11 [0, code] = true → 6 < code.toNat →
    exec (.list [0, code]) s = .next (s.answered .range [])) ∧
  (∀ (s : State) (z : Byte), s.takesRequest 0x11 [1, z] = true →
    exec (.list [1, z]) s = .next (if z.toNat ≤ 15 then s.answered .done (listPayload (allSlots.filter fun n =>
        (s.record n).state ≠ .vacant && (s.record n).kind = .inverter && (s.record n).inZone z.toNat))
      else s.answered .range []))

/-- The reading requests of the other blocks answer and change nothing, with these bytes; READ PLANT with the clear mark
sets both breach counters to 0 after its answer (R55, R97, R98, R116, R135, R153, R155). Widths that no list gives (log
9), the code of the filtered HOLD level (log 38), the claim fields of a zone that is not in LOWERING (log 10), the block
of a slot that is not usable (log 24) and a descent time that its two bytes do not hold (log 34) are the model's. -/
def Obligations.BlockReadersAnswer : Prop :=
  (∀ s : State, s.takesRequest 0x30 [] = true →
    exec (.readTickets []) s = .next (s.answered .done
      (beBytes 4 s.line.lup ++ beBytes 4 s.raise.riseClaimed ++
       [byte (allSixteen.filter fun k => (s.ticket k).isSome).length, boolByte s.raise.holdFiltered,
        boolByte s.raise.holdFlag, boolByte s.raise.effHold] ++
       allSixteen.flatMap fun k =>
         match s.ticket k with
         | none => []
         | some x => [byte k, byte x.slot] ++ beBytes 2 x.start ++ beBytes 2 x.target ++ beBytes 2 x.rate ++
             beSat 4 ((s.now - x.granted) / 1000) ++ beSat 4 ((x.expiry - s.now) / 1000)))) ∧
  (∀ (s : State) (p : List Byte) (start : Option Nat), s.takesRequest 0x31 p = true → queueForm p = some start →
    exec (.readQueue p) s = .next (if start.getD 0 ≤ 63 then s.answered .done
        ([byte s.raise.queue.length, byte (start.getD 0)] ++
         ((s.raise.queue.zipIdx.drop (start.getD 0)).take 16).flatMap fun x =>
           let exempt := (s.record x.1.slot).exempt
           [byte x.2, byte x.1.slot] ++ beBytes 2 x.1.wanted ++ beSat 4 ((s.now - x.1.time) / 1000) ++
           [boolByte exempt, boolByte (s.raise.effHold && !exempt)])
      else s.answered .range [])) ∧
  (∀ (s : State) (z : Byte), s.takesRequest 0x42 [z] = true →
    exec (.readZone [z]) s = .next (if z.toNat ≤ 15 then
        (let x := s.zone z.toNat
         let left := fun t : Option Nat => beSat 4 ((t.getD 0 - s.now) / 1000)
         let members := allSlots.filter fun n =>
           (s.record n).state ≠ .vacant && (s.record n).kind = .inverter && (s.record n).inZone z.toNat
         let bits := fun mark : Nat → Bool => (allSixteen.map fun i => if mark i then 2 ^ i else 0).sum
         s.answered .done
           ([z, byte x.state.code] ++ beBytes 2 x.floor ++ left (if x.state = .forecast then x.arrival else none) ++
            left x.clearTime ++ [byte x.sources.length] ++
            (x.sources.flatMap fun y => byte y.sensor :: (beBytes 2 y.lead ++ left (some y.arrival) ++ [boolByte y.cleared])) ++
            [byte members.length] ++ beBytes 2 (bits fun i => (s.sensor i).filtered) ++
            beBytes 2 (bits fun i => (s.sensor i).timer.isSome)))
      else s.answered .range [])) ∧
  (∀ (s : State) (p : List Byte) (a : ClaimsArgs), s.takesRequest 0x50 p = true → claimsForm p = some a →
    exec (.readClaims p) s =
      .next (if a.zone.getD 0 ≤ 15 ∧ a.start.getD 0 ≤ 63 then
          (let line := fun z : Nat => [byte z, byte (s.zone z).state.code, byte (s.phase z).code] ++
             beSat 4 (match s.phase z with | .timing d => (d - s.now) / 1000 | _ => 0) ++
             [byte (if z ∈ s.lower.waitList then s.lower.waitList.idxOf z else 0xFF)] ++
             match s.phase z with
             | .lowering c => beBytes 4 c.rate ++ beSat 4 ((s.now - c.granted) / 1000) ++
                 beSat 4 ((c.plannedEnd - s.now) / 1000) ++ [byte c.units.length]
             | _ => []
           s.answered .done (match a.zone with
             | none => beBytes 4 s.line.ldown ++ beBytes 4 s.lower.fallClaimed ++
                 [byte (allSixteen.filter fun z => (s.phase z).code = 3).length, byte s.lower.waitList.length] ++
                 beBytes 2 s.policy.startMargin ++ [boolByte s.policy.early] ++ beBytes 4 s.policy.minClaim ++
                 allSixteen.flatMap line ++ s.lower.waitList.map byte
             | some z => line z ++ match s.phase z with
                 | .lowering c => ((c.units.drop (a.start.getD 0)).take 16).flatMap fun u =>
                     [byte u.slot] ++ beBytes 2 u.start ++ beBytes 2 u.target ++ beBytes 2 u.rate ++
                     beSat 2 (((u.start - u.target) * 60 + (u.rate - 1)) / u.rate)
                 | _ => []))
        else s.answered .range [])) ∧
  (∀ (s : State) (clear : Bool), let p : List Byte := if clear then [0x01] else []
    s.takesRequest 0x60 p = true →
    exec (.readPlant p) s = .next
      (let t := s.answered .done
         (beBytes 4 s.arraySum ++ beInt 4 (s.line.pl.getD 0) ++ beInt 4 s.line.cover ++ beInt 4 s.line.given ++
          beInt 4 ((s.usableSlots.map fun n => (s.record n).storageOutput).sum) ++
          beBytes 4 s.line.lup ++ beBytes 4 s.line.ldown ++
          beBytes 4 (max 1 (s.line.lup * s.policy.lineStep / 60000)) ++
          beBytes 4 (max 1 (s.line.ldown * s.policy.lineStep / 60000)) ++ beBytes 2 s.policy.lineStep ++
          [boolByte s.line.pl.isNone, byte s.line.condition.code, byte s.usableSlots.length, byte s.line.episode.code] ++
          beSat 4 (match s.line.episode with
            | .none => 0
            | .fall x => (s.now - x) / 1000
            | .rise x => (s.now - x) / 1000) ++
          beBytes 2 s.line.fallBreaches ++ beBytes 2 s.line.riseBreaches ++
          beSat 4 ((s.line.timer.getD 0 - s.now) / 1000) ++ [byte s.policy.nr] ++
          (allSlots.filter fun n => slotKind s.policy.nr n = .storage).flatMap fun n =>
            let r := s.record n
            if r.state = .vacant then byte n :: List.replicate 22 0
            else
              let share := (s.tx n).cover.map (·.share)
              [byte n, byte r.state.code,
               byte (r.usable.toNat + 2 * r.lastReport.isSome.toNat + 4 * (s.lastShare n).isSome.toNat + 8 * share.isSome.toNat)] ++
              beBytes 2 r.countedCharge ++ beBytes 2 (r.countedDischarge s.policy.reserve) ++
              beBytes 2 r.countedChargeLimit ++ beInt 2 r.storageOutput ++ beInt 4 ((s.lastShare n).getD 0) ++
              beInt 4 (share.getD 0) ++ beSat 4 (match r.lastReport with
                | none => 0
                | some (.storage _ _ _ _ x) => (s.now - x) / 1000
                | some (.inverter _ _ x) => (s.now - x) / 1000))
       if clear then { t with line := { s.line with fallBreaches := 0, riseBreaches := 0 } } else t)) ∧
  (∀ (s : State) (n : Byte), s.takesRequest 0x20 [n] = true → n.toNat ≤ 3 →
    exec (.setProfile [n]) s =
      .next (s.answered .done [n, byte (s.profile n.toNat).up, byte (s.profile n.toNat).down])) ∧
  (∀ s : State, s.takesRequest 0x61 [] = true →
    exec (.setLimits []) s = .next (s.answered .done (beBytes 4 s.line.lup ++ beBytes 4 s.line.ldown)))

/-- A payload without one of the forms of its request is answered RANGE, a code that names no request UNKNOWN, and a
frame that fails its check CHECK ERROR with FRAME ERROR raised; nothing else changes (R174, R175, R193). The bytes of
the failing frame are all its whole bytes: bits already clocked in hold none beyond them (log 7). That a value of early
lowering other than 0 and 1 is out of form, so that it is answered RANGE before the lock is looked at, is the model's
choice (log 21). -/
def Obligations.BadFramesAreAnswered : Prop :=
  (∀ (s : State) (p : List Byte), p ≠ [] →
    (s.takesRequest 0x00 p = true → exec (.nop p) s = .next (s.answered .range [])) ∧
    (s.takesRequest 0x01 p = true → exec (.status p) s = .next (s.answered .range [])) ∧
    (s.takesRequest 0x02 p = true → exec (.peek p) s = .next (s.answered .range [])) ∧
    (s.takesRequest 0x05 p = true → exec (.lock p) s = .next (s.answered .range [])) ∧
    (s.takesRequest 0x06 p = true → exec (.restart p) s = .next (s.answered .range [])) ∧
    (s.takesRequest 0x07 p = true → exec (.identify p) s = .next (s.answered .range [])) ∧
    (s.takesRequest 0x30 p = true → exec (.readTickets p) s = .next (s.answered .range [])) ∧
    (s.takesRequest 0x70 p = true → exec (.recall p) s = .next (s.answered .range []))) ∧
  (∀ (s : State) (p : List Byte),
    (s.takesRequest 0x03 p = true → maskForm p = none → exec (.setMask p) s = .next (s.answered .range [])) ∧
    (s.takesRequest 0x04 p = true → policyForm p = none → exec (.setPolicy p) s = .next (s.answered .range [])) ∧
    (s.takesRequest 0x10 p = true → lookupForm p = none → exec (.lookup p) s = .next (s.answered .range [])) ∧
    (s.takesRequest 0x11 p = true → listForm p = none → exec (.list p) s = .next (s.answered .range [])) ∧
    (s.takesRequest 0x12 p = true → bindForm p = none → exec (.bind p) s = .next (s.answered .range [])) ∧
    (s.takesRequest 0x13 p = true → amendForm p = none → exec (.amend p) s = .next (s.answered .range [])) ∧
    (s.takesRequest 0x14 p = true → oneByteForm p = none → exec (.retire p) s = .next (s.answered .range [])) ∧
    (s.takesRequest 0x20 p = true → profileForm p = none → exec (.setProfile p) s = .next (s.answered .range [])) ∧
    (s.takesRequest 0x31 p = true → queueForm p = none → exec (.readQueue p) s = .next (s.answered .range [])) ∧
    (s.takesRequest 0x32 p = true → oneByteForm p = none → exec (.hold p) s = .next (s.answered .range [])) ∧
    (s.takesRequest 0x40 p = true → zoneForm p = none → exec (.setZone p) s = .next (s.answered .range [])) ∧
    (s.takesRequest 0x41 p = true → mapForm p = none → exec (.setSensorMap p) s = .next (s.answered .range [])) ∧
    (s.takesRequest 0x42 p = true → oneByteForm p = none → exec (.readZone p) s = .next (s.answered .range [])) ∧
    (s.takesRequest 0x50 p = true → claimsForm p = none → exec (.readClaims p) s = .next (s.answered .range [])) ∧
    (s.takesRequest 0x60 p = true → plantForm p = none → exec (.readPlant p) s = .next (s.answered .range [])) ∧
    (s.takesRequest 0x61 p = true → limitsForm p = none → exec (.setLimits p) s = .next (s.answered .range []))) ∧
  (∀ (s : State) (code : Byte) (p : List Byte), requestOf code = none → s.takesRequest code p = true →
    exec (.unknown code p) s = .next (s.answered .unknown [])) ∧
  (∀ (s : State) (bytes : List Byte), bytes ≠ [] → parseRequest bytes = none → s.takes false bytes = true →
    exec (.checkError bytes) s = .next { s with
      port := { s.executing (some { status := .checkError, payload := [] }) with
                causes := s.port.causes ||| 0x800#12, attn := (s.port.causes ||| 0x800#12) &&& s.port.mask != 0 }
      link := s.settle.link })

/-! ### Requests that change the blocks -/

/-- An accepted BIND (R9): an inverter is bound with its first envelope staged and a push POLL asked for; a converter is
bound, affirmed, and usable. The quarter of Ta is in whole ms (the model's choice, log 19). -/
def Obligations.BindBindsTheRecord : Prop :=
  ∀ (s : State) (p : List Byte) (a : BindArgs), s.takesRequest 0x12 p = true → bindForm p = some a → a.slot ≤ 63 →
    (s.record a.slot).state = .addressed →
    (∀ z x e, (s.record a.slot).kind = .inverter → (s.record a.slot).EnvelopesOk →
      a.parts.zone = some z → a.parts.profile = some x → a.parts.exempt = some e → a.parts.inRange = true →
      ∃ t, exec (.bind p) s = .next t ∧ s.Responds t .done [] ∧
        (let old := s.record a.slot
         let rating := a.parts.rating.getD old.rating
         t.record a.slot = { old with
           state := .bound, bindDeadline := none, lease := some (s.now + s.policy.leaseInterval * 1000),
           binding := some { zone := z, profile := x, exempt := e }, rating := rating, revision := old.revision + 1,
           staged := some { bank := false, ceiling := min old.lastOutput rating
                            rate := max (permille rating (rateScale (s.profile x).up)) 1 } }) ∧
        (t.tx a.slot).push.isSome = true ∧ (∀ m, m ≠ a.slot → t.record m = s.record m) ∧
        t = { s with records := t.records, link := t.link, port := t.port } ∧ t.port.causes = s.port.causes) ∧
    ((s.record a.slot).kind = .storage → a.parts.onlyRating = true → a.parts.inRange = true →
      ∃ t, exec (.bind p) s = .next t ∧ s.Responds t .done [] ∧
        (let old := s.record a.slot
         t.record a.slot = { old with
           state := .bound, bindDeadline := none, lease := some (s.now + s.policy.leaseInterval * 1000),
           binding := none, rating := a.parts.rating.getD old.rating, revision := old.revision + 1,
           affirm := some (s.affirmFrom s.now) }) ∧
        (t.tx a.slot).cover.isSome = true ∧ t.line = { s.line with condition := t.conditionNow } ∧
        a.slot ∈ t.usableSlots ∧ t.raise = s.raise ∧ t.shade = s.shade ∧ t.policy = s.policy ∧ t.now = s.now)

/-- An accepted AMEND is applied whole (R20, R21, R22, R96): the parts it carries take effect, the revision advances by
one, the state stands. A zone that is not CLEAR, or an up-rate left at 0, cuts the ticket and removes the entry;
hold-exempt cleared under an effective hold, or a target above a lower rating, cuts the ticket alone. A lower rating
limits the ceilings, and sends the rating-limit claim where the effective ceiling was above it. Hold-exempt set under a
hold makes a queued record a candidate. The cuts use the rating and the profile it has written (log 26); a place of the
ticket table that is taken again is told by its sequence number (log 28). -/
def Obligations.AmendAppliesEveryPart : Prop :=
  ∀ (s : State) (p : List Byte) (a : AmendArgs), s.takesRequest 0x13 p = true → amendForm p = some a → a.slot ≤ 63 →
    ((s.record a.slot).state = .bound ∨ (s.record a.slot).state = .dormant ∨ (s.record a.slot).state = .lapsed) →
    a.revision = (s.record a.slot).revision → a.parts.amends (s.record a.slot).kind = true → s.QueueOk →
    ∃ t, exec (.amend p) s = .next t ∧ s.Responds t .done [] ∧
      (let n := a.slot
       let old := s.record n
       let rating := a.parts.rating.getD old.rating
       let binding := old.binding.map fun b =>
         { b with zone := a.parts.zone.getD b.zone, profile := a.parts.profile.getD b.profile
                  exempt := a.parts.exempt.getD b.exempt }
       let written : UnitRecord := { old with
         rating := rating, revision := old.revision + 1, binding := binding,
         demoted := if a.clearHealth then false else old.demoted,
         lapses := if a.clearHealth then 0 else old.lapses,
         slowRaises := if a.clearHealth then 0 else old.slowRaises,
         ackMismatches := if a.clearHealth then 0 else old.ackMismatches }
       let lowers := decide (rating < old.rating ∧ old.kind = .inverter)
       let ticket := (s.ticketOf n).bind s.ticket
       let removes := decide (old.kind = .inverter) &&
         ((a.parts.zone.isSome && !s.zoneClear written) ||
           ((a.parts.profile.isSome || lowers) && decide (s.upRate written = 0)))
       let cuts := removes || (s.raise.effHold && old.exempt && decide (a.parts.exempt = some false)) ||
         (lowers && ticket.any fun x => decide (rating < x.target))
       let descent := s.descentRate written
       let afterCut : UnitRecord := match ticket with
         | some x =>
           let envelope := written.claimEnvelope (min x.target (max x.start old.lastOutput)) descent
           if cuts then { written with staged := some envelope } else written
         | none => written
       let limited : UnitRecord := if lowers && afterCut.active.isSome then { afterCut with
           active := afterCut.active.map fun e => { e with ceiling := min e.ceiling rating }
           staged := afterCut.staged.map fun e => { e with ceiling := min e.ceiling rating } } else afterCut
       let claims := lowers && decide (old.state = .bound ∨ (old.state = .lapsed ∧ limited.staged.isSome = true)) &&
         decide (rating < old.effCeiling.getD 0)
       let final : UnitRecord := if claims then { limited with staged := some (limited.claimEnvelope rating descent) } else limited
       t.record n = { final with staged := (t.record n).staged } ∧
       ((s.queued n = false ∨ t.queued n = true ∨ removes = true) → t.record n = final) ∧
       (claims = true → (t.tx n).push.isSome = true ∨ limited.staged = final.staged) ∧
       (cuts = true → (∀ k ∈ s.ticketOf n, ∀ y ∈ t.ticket k, s.raise.nextSeq ≤ y.seq) ∧ t.ticketOf n = none) ∧
       (cuts = false → ∀ k ∈ s.ticketOf n, t.ticket k = s.ticket k) ∧
       (removes = true → t.queued n = false) ∧
       (removes = false → s.queued n = true → t.queued n = true ∨
         (t.ticketOf n).isSome = true ∧ s.raise.effHold = true ∧ a.parts.exempt = some true ∧ old.exempt = false) ∧
       (removes = false → s.queued n = true → s.raise.effHold = true → a.parts.exempt = some true → old.exempt = false →
         s.zoneClear written = true → (∀ e ∈ s.raise.queue, e.slot ≠ n → (s.record e.slot).exempt = false) →
         (∃ k < 16, s.ticket k = none) → (s.grantRate written).isSome = true → t.queued n = false)) ∧
      (∀ m, m ≠ a.slot → t.record m = { s.record m with staged := (t.record m).staged }) ∧
      t = { s with records := t.records, link := t.link, raise := t.raise, port := t.port } ∧
      t.port.causes = s.port.causes ∧ t.raise.effHold = s.raise.effHold

/-- RETIRE by the state of the record (R23): a RECALLED one becomes VACANT, its entries in live claims marked freed (R4,
R132); one that is in use enters RETIRING, with nothing pending for its slot but a RELEASE, no ticket and no queue
entry. -/
def Obligations.RetireEndsTheRecord : Prop :=
  ∀ (s : State) (n : Byte), s.takesRequest 0x14 [n] = true → n.toNat ≤ 63 → s.QueueOk →
    ((s.record n.toNat).state = .recalled →
      ∃ t, exec (.retire [n]) s = .next t ∧ s.Responds t .done [] ∧ t.record n.toNat = .vacant ∧
        t.tx n.toNat = .empty ∧ t.part n.toNat = none ∧ t.port.causes = s.port.causes ∧
        s.EntriesFreed t n.toNat ∧ t.lower = { s.lower with phases := t.lower.phases } ∧
        (∀ m, m ≠ n.toNat → t.record m = s.record m) ∧ t.policy = s.policy ∧ t.shade = s.shade ∧ t.now = s.now) ∧
    (((s.record n.toNat).state = .addressed ∨ (s.record n.toNat).state = .bound ∨ (s.record n.toNat).state = .dormant ∨
        (s.record n.toNat).state = .lapsed) →
      ∃ t, exec (.retire [n]) s = .next t ∧ s.Responds t .accepted [] ∧
        t.record n.toNat = { s.record n.toNat with
          state := .retiring, staged := none, affirm := none, lease := none, bindDeadline := none,
          releaseDeadline := none } ∧
        t.tx n.toNat = { SlotTx.empty with release := some s.now } ∧ t.ticketOf n.toNat = none ∧
        t.queued n.toNat = false ∧ t.policy = s.policy ∧ t.shade = s.shade ∧ t.now = s.now ∧
        (∀ m, m ≠ n.toNat → t.record m = { s.record m with staged := (t.record m).staged }))

/-- An accepted SET PROFILE that carries an index writes it into the entry and leaves the rest of the table (R55); no
record changes but for its staged envelope. The ticket of each inverter of the profile whose up-rate is then 0 is cut,
at the descent rate of the new entry, and its queue entry removed; every other ticket and entry stands, or is granted
(R56). That the records are taken one by one, in slot order, is the model's choice (log 15). Widths that no list gives
are the model's (log 9). -/
def Obligations.SetProfileWritesTheEntry : Prop :=
  ∀ (s : State) (p : List Byte) (a : ProfileArgs), s.takesRequest 0x20 p = true → profileForm p = some a →
    a.profile ≤ 3 → (a.up.isSome || a.down.isSome) = true → s.port.lock = false →
    (a.up.all fun i => i ≤ 15) = true → (a.down.all fun i => i ≤ 15) = true → s.QueueOk →
    ∃ t, exec (.setProfile p) s = .next t ∧
      (let y : Profile := { up := a.up.getD (s.profile a.profile).up, down := a.down.getD (s.profile a.profile).down }
       s.Responds t .done [byte a.profile, byte y.up, byte y.down] ∧ t.profile a.profile = y) ∧
      (∀ q, q ≠ a.profile → t.profile q = s.profile q) ∧
      (∀ n < 64, let r := s.record n
        if r.state ≠ .vacant ∧ r.kind = .inverter ∧ (∃ b ∈ r.binding, b.profile = a.profile) ∧ t.upRate r = 0 then
          t.ticketOf n = none ∧ t.queued n = false ∧
          (∀ k ∈ s.ticketOf n, ∀ x ∈ s.ticket k,
            t.record n = { r with
              staged := some (r.claimEnvelope (min x.target (max x.start r.lastOutput)) (t.descentRate r)) })
        else
          (∀ k ∈ s.ticketOf n, t.ticket k = s.ticket k) ∧
          (s.queued n = true → t.queued n = true ∨ (t.ticketOf n).isSome = true)) ∧
      (∀ m, t.record m = { s.record m with staged := (t.record m).staged }) ∧
      t = { s with profiles := t.profiles, records := t.records, link := t.link, raise := t.raise, port := t.port } ∧
      t.port.causes = s.port.causes

/-- HOLD (R93, R94): SET and CLEAR write the request flag, READ changes nothing, any other action is answered RANGE;
effective hold is worked afresh, and a change of it raises HOLD CHANGED; where it becomes yes the ticket of every record
that is not exempt is cut, at the lower of its target and the higher of its start and the last output, those of exempt
records stand, the queue entries are kept, and grant evaluation runs (R87, R95); where it becomes no grant evaluation
runs, from the head of the queue (R80); where it stays nothing else changes. The bytes of the answer are the model's:
one for each value (log 9), the filtered level 1 while it is asserted (log 38). -/
def Obligations.HoldRequestWritesTheFlag : Prop :=
  ∀ s : State, s.HoldOk →
    (s.takesRequest 0x32 [0] = true → exec (.hold [0]) s = .next (s.answered .done
      [boolByte s.raise.holdFiltered, boolByte s.raise.holdFlag, boolByte s.raise.effHold])) ∧
    (∀ action : Byte, 2 < action.toNat → s.takesRequest 0x32 [action] = true →
      exec (.hold [action]) s = .next (s.answered .range [])) ∧
    (∀ set : Bool, let action : Byte := if set then 1 else 2
      s.takesRequest 0x32 [action] = true →
      ∃ t, exec (.hold [action]) s = .next t ∧ t.raise.holdFlag = set ∧ t.raise.effHold = (s.raise.holdFiltered || set) ∧
        s.Responds t .done [boolByte s.raise.holdFiltered, boolByte set, boolByte (s.raise.holdFiltered || set)] ∧
        t.port.causes = (if t.raise.effHold = s.raise.effHold then s.port.causes else s.port.causes ||| 0x400#12) ∧
        (s.raise.effHold = false → t.raise.effHold = true →
          (∀ k < 16, ∀ x ∈ t.ticket k, (t.record x.slot).exempt = true) ∧ (s.QueueOk → s.HoldCuts t)) ∧
        (s.raise.effHold = true → t.raise.effHold = false →
          t = State.settle { State.grantEvaluation { s with
            raise := { s.raise with holdFlag := set, effHold := false } } with port := t.port }) ∧
        (t.raise.effHold = s.raise.effHold →
          t = { s.answered .done [boolByte s.raise.holdFiltered, boolByte set, boolByte s.raise.effHold] with
            raise := { s.raise with holdFlag := set } }) ∧
        (∀ m, t.record m = { s.record m with staged := (t.record m).staged }) ∧
        t = { s with records := t.records, link := t.link, raise := t.raise, port := t.port })

/-- An accepted SET ZONE (R115): the floor is written; a release mark returns a zone out of CLEAR to CLEAR, and notice
of it is given to both allocators (R113); no other zone changes. -/
def Obligations.SetZoneWritesAndReleases : Prop :=
  ∀ (s : State) (p : List Byte) (a : ZoneArgs), s.takesRequest 0x40 p = true → zoneForm p = some a → a.zone ≤ 15 →
    (a.floor.all fun f => f ≤ 1000) = true →
    let old := s.zone a.zone
    let floor := a.floor.getD old.floor
    let releases := a.release && old.state ≠ .clear
    let notice : List Notice := if releases then [.returnedClear a.zone false] else []
    let new : Zone := if releases then { state := .clear, sources := [], arrival := none, clearTime := none, floor := floor }
      else { old with floor := floor }
    exec (.setZone p) s = .next
      (let t := s.answered .done ([byte a.zone, byte (if releases then 0 else old.state.code)] ++ beBytes 2 floor)
       { t with
         shade := { s.shade with zones := place s.shade.zones a.zone new }
         raise := { s.raise with notices := s.raise.notices ++ notice }
         lower := { s.lower with notices := s.lower.notices ++ notice } })

/-- SET SENSOR MAP (R105): a list replaces the sensor's whole list, no list changes nothing, a list out of range is
answered RANGE; the answer gives the sensor, its filtered level and its list. Widths that no list gives (log 9), the
count byte before the list and the code of the level (log 32) are the model's. -/
def Obligations.SetSensorMapReplacesTheList : Prop :=
  ∀ (s : State) (p : List Byte) (a : MapArgs), s.takesRequest 0x41 p = true → mapForm p = some a →
    (15 < a.sensor → exec (.setSensorMap p) s = .next (s.answered .range [])) ∧
    (a.sensor ≤ 15 → ∀ l ∈ a.entries,
      ((4 < l.length ∨ (∃ e ∈ l, 15 < e.zone ∨ e.lead = 0) ∨ ¬ (l.map (·.zone)).Nodup) →
        exec (.setSensorMap p) s = .next (s.answered .range [])) ∧
      (l.length ≤ 4 → (∀ e ∈ l, e.zone ≤ 15 ∧ 1 ≤ e.lead) → (l.map (·.zone)).Nodup →
        exec (.setSensorMap p) s = .next
          (let t := s.answered .done ([byte a.sensor, boolByte (s.sensor a.sensor).filtered, byte l.length] ++
             l.flatMap fun e => byte e.zone :: beBytes 2 e.lead)
           { t with shade := { s.shade with map := place s.shade.map a.sensor l } }))) ∧
    (a.sensor ≤ 15 → a.entries = none → exec (.setSensorMap p) s = .next
      (let l := look s.shade.map a.sensor []
       s.answered .done ([byte a.sensor, boolByte (s.sensor a.sensor).filtered, byte l.length] ++
         l.flatMap fun e => byte e.zone :: beBytes 2 e.lead)))

/-- An accepted SET LIMITS (R153, R154, R87, R89, R131): the limits it carries are written, and rise claimed and fall
claimed are brought within them. Where nothing has to be cut a risen Lup runs grant evaluation and a risen Ldown claim
evaluation, and nothing else happens (R89, R131). Tickets and claims are cut newest first, each whole, as long as what
is left does not fit: one is cut exactly where the rates granted up to it do not fit. A ticket is cut at the lower of
its target and the higher of its start and the last output, at the descent rate; a claim at the lower of each entry's
start and the higher of its target and the last output, at the unit rate, freed entries and records out of BOUND passed
over, and its zone requests at once. A place that is taken again is told by its sequence number (log 28). That a zone
requests also while a notice of its return to CLEAR waits is the model's reading (log 33). -/
def Obligations.SetLimitsWritesTheLimits : Prop :=
  (∀ (s : State) (p : List Byte) (a : LimitsArgs), s.takesRequest 0x61 p = true → limitsForm p = some a →
    ((a.lup.isSome || a.ldown.isSome) && s.port.lock) = false → a.lup.all limitOk = true → a.ldown.all limitOk = true →
    s.RiseOk → s.QueueOk → s.WaitOk → s.FallOk →
    ∃ t, exec (.setLimits p) s = .next t ∧
      s.Responds t .done (beBytes 4 (a.lup.getD s.line.lup) ++ beBytes 4 (a.ldown.getD s.line.ldown)) ∧
      t.line = { s.line with lup := a.lup.getD s.line.lup, ldown := a.ldown.getD s.line.ldown } ∧
      t.raise.riseClaimed ≤ t.line.lup ∧ t.lower.fallClaimed ≤ t.line.ldown ∧
      (s.raise.riseClaimed ≤ t.line.lup → s.lower.fallClaimed ≤ t.line.ldown →
        let u : State := { s with line := t.line, port := { s.port with csLow := false, receiver := .idle } }
        let v := if s.line.lup < t.line.lup then u.grantEvaluation else u
        let w := if s.line.ldown < t.line.ldown then v.claimEvaluation else v
        t = State.settle { w with port := s.executing (some
          { status := .done, payload := beBytes 4 (a.lup.getD s.line.lup) ++ beBytes 4 (a.ldown.getD s.line.ldown) }) }) ∧
      (∀ k < 16, ∀ x ∈ s.ticket k,
        if t.line.lup < s.ticketRatesUpTo x.seq then
          (∀ y ∈ t.ticket k, s.raise.nextSeq ≤ y.seq) ∧ t.ticketOf x.slot = none ∧
          (a.ldown = none → let r := s.record x.slot
            (t.record x.slot).staged = some (r.claimEnvelope (min x.target (max x.start r.lastOutput)) (s.descentRate r)))
        else t.ticket k = some x) ∧
      (∀ z < 16, ∀ c ∈ s.claim z,
        if t.line.ldown < s.claimRatesUpTo c.seq then
          (∀ d ∈ t.claim z, s.lower.nextSeq ≤ d.seq) ∧
          (if s.governor = .running then t.requested z = true else t.phase z = .deferred)
        else t.phase z = .lowering c) ∧
      t.raise.effHold = s.raise.effHold ∧ t.port.causes = s.port.causes ∧
      (∀ m, t.record m = { s.record m with staged := (t.record m).staged }) ∧
      t = { s with records := t.records, link := t.link, raise := t.raise, lower := t.lower, line := t.line,
                   port := t.port }) ∧
  (∀ (s : State) (z : Nat) (c : Claim), z < 16 → s.phase z = .lowering c → (c.units.map (·.slot)).Nodup →
    let t := s.cutClaim z
    t.lower.fallClaimed = s.lower.fallClaimed - c.rate ∧
    (s.governor = .running → t.phase z = .waiting ∧ z ∈ t.lower.waitList) ∧
    (∀ u ∈ c.units, let r := s.record u.slot
      t.record u.slot = if u.freed = false ∧ r.boundInverter = true then
          { r with staged := some (r.claimEnvelope (min u.start (max u.target r.lastOutput)) u.rate) }
        else r) ∧
    (∀ n, n ∉ c.units.map (·.slot) → t.record n = s.record n))

/-- RECALL (R162, R160): while RUNNING it begins a recall and is answered ACCEPTED; while RECALLING it is answered BUSY
and nothing changes. -/
def Obligations.RecallRequestBeginsARecall : Prop :=
  ∀ s : State, s.takesRequest 0x70 [] = true →
    (∀ w, s.governor = .recalling w →
      exec (.recall []) s = .next (s.answered .busy (0 :: beSat 4 ((w - s.now) / 1000)))) ∧
    (s.governor = .running →
      ∃ t, exec (.recall []) s = .next t ∧ s.Responds t .accepted (0 :: beSat 4 (s.policy.recallWindow * 1000)) ∧
        t.governor = .recalling (s.now + s.policy.recallWindow * 1000000) ∧
        (∀ n < 64, t.record n = match (s.record n).state with
          | .vacant | .recalled => s.record n
          | .addressed | .retiring => .vacant
          | .bound | .dormant | .lapsed => { s.record n with
              state := .recalled, active := none, staged := none, affirm := none, lease := none,
              bindDeadline := none }) ∧
        (∀ k < 16, t.ticket k = none) ∧ t.raise.queue = [] ∧ t.raise.riseClaimed = 0 ∧
        t.lower.waitList = [] ∧ t.lower.fallClaimed = 0 ∧
        (∀ z < 16, t.phase z = if (s.zone z).state = .clear then .idle else .deferred) ∧
        t.link.zoneEnvs = [] ∧ t.link.recallTx.isSome = true ∧ t.link.sweep = s.link.sweep ∧
        t.link.served = s.link.served ∧ t.link.txn = s.link.txn ∧
        t.shade = s.shade ∧ t.policy = s.policy ∧ t.profiles = s.profiles ∧ t.now = s.now ∧
        t.raise.effHold = s.raise.effHold ∧ t.raise.holdFlag = s.raise.holdFlag ∧ t.line.pl = s.line.pl ∧
        t.line.episode = s.line.episode ∧ t.line.lup = s.line.lup ∧ t.line.ldown = s.line.ldown)

/-! ### The pins of the Supervisor Port and its frames -/

/-- Chip select and the clock (R173, R176, R178): at the fall a frame begins with the pending response latched, or NOT
READY during an execution; a rising edge takes a bit in and a falling edge puts the next one out: the bits of the
latched response, each byte from its most significant bit, then 0, as in an abandoned frame (R179, R193). A response is
its status code, the length of its payload, the payload and the CRC-8 of these. Outside a frame 0 is put out, the
model's choice (log 35); the rise of a frame with no whole byte, of a NOT READY or an abandoned one, and of the wait
after a reset begins no execution. A level of the clock pin that does not change is no edge (log 6). -/
def Obligations.PinsOfThePort : Prop :=
  (∀ s : State, s.inReset = none → s.port.csLow = false → s.port.execution = none →
    exec .chipSelectFall s = .next { s with port := { s.port with
      csLow := true
      receiver := .frame { ready := true, bitsIn := [], out := s.port.pending.bytes, shifted := 0, lastEdge := s.now } } }) ∧
  (∀ (s : State) (e : Execution), s.inReset = none → s.port.csLow = false → s.port.execution = some e →
    let t : State := { s with port := { s.port with
      csLow := true
      receiver := .frame { ready := false, bitsIn := [], shifted := 0, lastEdge := s.now
                           out := Response.bytes { status := .notReady, payload := [] } } } }
    exec .notReady s = .next t ∧ exec .chipSelectFall s = .next t) ∧
  (∀ (s : State) (f : FrameRx) (bit : Bool), s.port.receiver = .frame f → s.port.sck = false →
    exec (.clockEdge true bit) s = .next { s with port := { s.port with
      sck := true, receiver := .frame { f with bitsIn := f.bitsIn ++ [bit], lastEdge := s.now } } }) ∧
  (∀ (s : State) (f : FrameRx) (bit : Bool), s.port.receiver = .frame f → s.port.sck = true →
    exec (.clockEdge false bit) s = .next { s with port := { s.port with
      sck := false, receiver := .frame { f with shifted := f.shifted + 1, lastEdge := s.now } } }) ∧
  (∀ s : State, (s.port.receiver = .idle ∨ s.port.receiver = .abandoned ∨ s.port.receiver = .waitHigh) →
    ∀ rising bit, exec (.clockEdge rising bit) s = .next { s with port := { s.port with sck := rising } }) ∧
  (∀ s : State, (s.port.receiver = .idle ∨ s.port.receiver = .abandoned ∨ s.port.receiver = .waitHigh ∨
      ∃ f, s.port.receiver = .frame f ∧ (f.ready = false ∨ f.bitsIn.length < 8)) →
    exec .chipSelectRise s = .next { s with port := { s.port with csLow := false, receiver := .idle } }) ∧
  (∀ (s : State) (rising bit : Bool), s.port.sck = rising → exec (.clockEdge rising bit) s = .next s) ∧
  (∀ (s : State) (f : FrameRx), s.port.receiver = .frame f →
    s.dataOut = if f.shifted < 8 * f.out.length then (f.out.getD (f.shifted / 8) 0).getLsbD (7 - f.shifted % 8) else false) ∧
  (∀ s : State, (s.port.receiver = .idle ∨ s.port.receiver = .abandoned ∨ s.port.receiver = .waitHigh) →
    s.dataOut = false) ∧
  (∀ r : Response, r.payload.length ≤ 250 → r.bytes =
    let body := r.status.code :: byte r.payload.length :: r.payload
    body ++ [crc8 body])

/-- The execution in progress completes and its response becomes pending (R177); NOP begins one without a response,
which leaves the pending one (R180). A frame that stalls for 2 ms is abandoned: FRAME TIMEOUT becomes pending and FRAME
ERROR is raised (R179); that time is then at least 2 ms after the last edge is the model's choice (log 2), and that a
low period with no whole byte is such a frame is its reading of R179 beside R173 (log 40). -/
def Obligations.ExecutionsCompleteAndFramesTimeOut : Prop :=
  (∀ (s : State) (e : Execution), s.inReset = none → s.port.execution = some e →
    exec .executionComplete s = .next { s with port := { s.port with
      execution := none
      pending := match e.response with
        | some r => r
        | none => s.port.pending } }) ∧
  (∀ s : State, s.takesRequest 0x00 [] = true →
    exec (.nop []) s = .next { s with port := s.executing none, link := s.settle.link }) ∧
  (∀ (s : State) (f : FrameRx), s.inReset = none → s.port.receiver = .frame f → s.mayPass (f.lastEdge + 2000) →
    exec .frameTimeout s = .next (State.settle { s with
      now := max s.now (f.lastEdge + 2000)
      port := { s.port with
        receiver := .abandoned, execution := none, pending := { status := .frameTimeout, payload := [] }
        causes := s.port.causes ||| 0x800#12, attn := (s.port.causes ||| 0x800#12) &&& s.port.mask != 0 } }))

/-- A request clocked in bit by bit does at the rise of chip select what its row does: the bytes of every request read
back as its code and its payload, with any fill behind them and bits after the last whole byte discarded (R173, R174).
That a row stands for its frame is the model's choice (log 7). -/
def Obligations.ClockedFrameIsItsRequest : Prop :=
  ∀ (c : Instr) (code : Byte) (payload fill : List Byte) (rest : List Bool) (s : State) (f : FrameRx),
    requestOfRow c = some (code, payload) → payload.length ≤ 250 → rest.length < 8 → s.inReset = none →
    s.port.receiver = .frame f → f.ready = true →
    f.bitsIn = bytesBits (requestBytes code payload ++ fill) ++ rest →
    exec .chipSelectRise s = exec c s

/-- The LOOKUP record byte for byte (R18, 10 10.2), and the lengths of the answers (10 10.3, R176): that record is 65
bytes, the answer to SET POLICY 58, the READ PLANT summary 55 and 23 more for each reserved slot; no response carries
more than 250 bytes of payload. What stands in a payload that would be longer is a free value (log 8). Widths that no
list gives are the model's (log 9). The codes of the values in them are those of 10 10.4. -/
def Obligations.AnswersHaveTheirLengths : Prop :=
  (∀ (s : State) (n : Nat), (s.lookupRecord n).length = 65 ∧
    s.lookupRecord n =
      let r := s.record n
      let here : Bool := r.state ≠ .vacant
      let long : Bool := match r.lastReport with | some (.storage ..) => true | _ => false
      let ceiling := if r.kind = .inverter then r.effCeiling else none
      let bits := fun marks : List Bool => (marks.zipIdx.map fun x => if x.1 then 2 ^ x.2 else 0).sum
      let left := fun d : Option Nat => beSat 4 ((d.getD 0 - s.now) / 1000)
      let envelope := fun e : Option Envelope => match e with
        | none => [0, 0, 0, 0, 0]
        | some e => byte e.bank.toNat :: (beBytes 2 e.ceiling ++ beBytes 2 e.rate)
      let held : Bool := s.raise.effHold && r.kind = .inverter && r.binding.any fun b => !b.exempt
      let zone := (r.binding.map (·.zone)).getD 0
      let profile := (r.binding.map (·.profile)).getD 0
      [byte n, byte r.state.code, byte (if here then r.kind else slotKind s.policy.nr n).code] ++
      beBytes 2 (bits [here, r.binding.isSome, r.lastReport.isSome, long, r.active.isSome, r.staged.isSome, ceiling.isSome,
        (s.ticketOf n).isSome]) ++
      beBytes 6 r.serial.toNat ++ beBytes 2 r.rating ++
      [byte zone, byte profile, byte (bits [r.exempt, r.demoted, held, s.queued n]),
       byte r.lapses, byte r.slowRaises, byte r.ackMismatches, r.revision] ++
      left r.lease ++ left r.bindDeadline ++ left r.releaseDeadline ++ left (r.affirm.map (·.deadline)) ++
      (match r.lastReport with
        | none => List.replicate 16 0
        | some (.inverter o a x) => beBytes 2 o ++ beBytes 2 a ++ List.replicate 8 0 ++ beSat 4 ((s.now - x) / 1000)
        | some (.storage o c d l x) => List.replicate 4 0 ++ beInt 2 o ++ beBytes 2 c ++ beBytes 2 d ++ beBytes 2 l ++
            beSat 4 ((s.now - x) / 1000)) ++
      envelope r.active ++ envelope r.staged ++ beBytes 2 (ceiling.getD 0) ++ [byte ((s.ticketOf n).getD 0)]) ∧
  (∀ p : Policy, p.answer.length = 58) ∧
  (∀ s : State, s.policy.nr ≤ 2 → s.plantPayload.length = 55 + 23 * s.policy.nr) ∧
  (∀ r : Response, r.bytes.length ≤ 253) ∧
  [RecState.vacant, .addressed, .bound, .dormant, .lapsed, .recalled, .retiring].map (·.code) = [0, 1, 2, 3, 4, 5, 6] ∧
  [Kind.inverter, .storage].map (·.code) = [0, 1] ∧ [ZoneState.clear, .forecast, .shaded].map (·.code) = [0, 1, 2] ∧
  (∀ c : Claim, [Phase.idle, .timing 0, .waiting, .lowering c, .lowered, .empty, .deferred].map (·.code) =
    [0, 1, 2, 3, 4, 5, 6]) ∧
  [CoverCond.full, .caution, .none].map (·.code) = [0, 1, 2] ∧ [Episode.none, .fall 0, .rise 0].map (·.code) = [0, 1, 2] ∧
  [Governor.recalling 0, .running].map (·.code) = [0, 1] ∧ [ResetKind.powerOn, .resetPin, .restart].map (·.code) = [0, 1, 2] ∧
  [Status.done, .accepted, .busy, .wrongState, .noSuch, .stale, .locked, .range, .unknown, .checkError, .notReady,
    .frameTimeout].map (·.code) = [0, 1, 2, 3, 4, 5, 6, 7, 8, 9, 10, 11]

/-! ### Resets (spec/08 8.7) -/

/-- The lock and the locked values through the three kinds of reset (R170): a power-on reset clears them; a RESET pin
and a RESTART keep them where the lock is set at their start. Every other setting takes its default. That the other
blocks hold their reset values from the beginning of a reset, and that a RESET pin during a power-on reset leaves it
one, is the model's choice (log 11). -/
def Obligations.LockThroughResets : Prop :=
  (∀ s : State, ∃ t, exec .powerOnReset s = .next t ∧ t.inReset = some .powerOn ∧ s.LockedValues t false ∧
    t.pending = s.pending ∧ t.now = s.now ∧ t.link = Link.empty ∧ t.line.timer = none ∧ t.port.attn = false ∧
    t.port.execution = none ∧ t.records = Vector.replicate 64 UnitRecord.vacant) ∧
  (∀ s : State, s.inReset = some .powerOn → exec .resetPin s = .next s) ∧
  (∀ s : State, s.inReset ≠ some .powerOn →
    ∃ t, exec .resetPin s = .next t ∧ t.inReset = some .resetPin ∧ s.LockedValues t s.port.lock ∧
      t.pending = s.pending ∧ t.now = s.now ∧ t.link = Link.empty ∧ t.line.timer = none ∧ t.port.attn = false ∧
      t.port.execution = none ∧ t.records = Vector.replicate 64 UnitRecord.vacant) ∧
  (∀ s : State, s.takesRequest 0x06 [] = true →
    ∃ t, exec (.restart []) s = .next t ∧ s.LockedValues t s.port.lock) ∧
  (∀ (s : State) (kind : ResetKind), s.inReset = some kind →
    ∃ t, exec .resetEnd s = .next t ∧ s.LockedValues t (s.port.lock && kind ≠ .powerOn))

/-- The end of a reset, and a RESTART, leave every block at its reset values, a recall running for 30 s over an empty
table, the RECALL broadcast pending and the reset report as the pending response (R172, R181, R190). Widths of the
report that no list gives are the model's (log 9). -/
def Obligations.ResetsEndInStartUp : Prop :=
  (∀ (s : State) (kind : ResetKind), s.inReset = some kind →
    ∃ t, exec .resetEnd s = .next t ∧ s.StartedUp t kind) ∧
  (∀ s : State, s.takesRequest 0x06 [] = true →
    ∃ t, exec (.restart []) s = .next t ∧ ({ s with port := { s.port with csLow := false } } : State).StartedUp t .restart)

/-! ### The field link (spec/02) -/

/-- A POLL begins (R31, R34, R46): it carries the envelope the record's state calls for, its slot is served, its reasons
are cleared, and an envelope it carries renews the affirm deadline. The quarter of Ta is in whole ms (the model's
choice, log 19), and the time its frame takes is a free value (log 22). -/
def Obligations.PollCarriesTheEnvelope : Prop :=
  ∀ (s : State) (n : Nat), n < 64 → s.arbiterChoice = some (.poll n) →
    let r := s.record n
    let e := if r.kind = .inverter ∧ r.state = .bound then r.staged <|> r.active
      else if r.kind = .inverter ∧ r.state = .lapsed then r.staged else none
    ∃ t, exec (.poll n) s = .next t ∧
      t.link.txn = some (.begun s.now (.poll n) (fieldFrame (n + 1) 0x01 ((e.map envelopeBytes).getD []))) ∧
      t.link.served = place s.link.served n true ∧
      t.tx n = { s.tx n with routine := none, push := none, affirmDue := none } ∧
      t.record n = (if e.isSome then
        { r with affirm := some (s.affirmFrom s.now) } else r) ∧
      (∀ m, m ≠ n → t.record m = s.record m) ∧ t = { s with records := t.records, link := t.link } ∧
      t.link.sweep = s.link.sweep ∧ t.link.refuse = s.link.refuse ∧ t.link.recallTx = s.link.recallTx ∧
      t.link.zoneEnvs = s.link.zoneEnvs

/-- JOIN WINDOW, ASSIGN, REFUSE, RELEASE and the RECALL broadcast begin with the frames of spec/10 10.1; an ASSIGN sets
the lease of an ADDRESSED, BOUND or DORMANT record and a RELEASE the release deadline (R35, R40 to R43, R7, R16). The
time a frame takes is a free value (log 22). -/
def Obligations.LinkTransactionsBegin : Prop :=
  (∀ s : State, s.arbiterChoice = some .joinWindow → exec .joinWindow s = .next (State.settle { s with link := { s.link with
    joinWindow := none, txn := some (.begun s.now .joinWindow (fieldFrame 0 0x02 [])) } })) ∧
  (∀ (s : State) (x : Serial) (t : Nat), s.arbiterChoice = some .refuse → s.link.refuse = some (x, t) →
    exec .refuse s = .next (State.settle { s with link := { s.link with
      refuse := none, txn := some (.begun s.now .noReply (fieldFrame 0 0x04 (beBytes 6 x.toNat))) } })) ∧
  (∀ s : State, s.arbiterChoice = some .recall → exec .recallBroadcast s = .next (State.settle { s with link := { s.link with
    recallTx := none, txn := some (.begun s.now .noReply (fieldFrame 127 0x06 [])) } })) ∧
  (∀ (s : State) (n : Nat), n < 64 → s.arbiterChoice = some (.release n) → exec (.release n) s = .next (State.settle { s with
    records := place s.records n { s.record n with releaseDeadline := some (s.now + s.policy.releaseTimeout * 1000) }
    link := { s.link with
      slotTx := place s.link.slotTx n { s.tx n with release := none }
      txn := some (.begun s.now (.release n) (fieldFrame (n + 1) 0x05 [])) } })) ∧
  (∀ (s : State) (n : Nat), n < 64 → s.arbiterChoice = some (.assign n) →
    let r := s.record n
    let lease := if r.state = .dormant then some (s.now + 4 * s.policy.leaseInterval * 1000)
      else if r.state = .addressed ∨ r.state = .bound then some (s.now + s.policy.leaseInterval * 1000) else r.lease
    let fallback := if r.kind = .inverter then r.rating else 0
    let frame := fieldFrame 0 0x03
      (beBytes 6 r.serial.toNat ++ [byte n, byte (n + 1)] ++ beBytes 2 s.policy.ta ++ beBytes 2 fallback)
    exec (.assign n) s = .next (State.settle { s with
      records := place s.records n { r with lease := lease }
      link := { s.link with
        slotTx := place s.link.slotTx n { s.tx n with assign := none }
        txn := some (.begun s.now .noReply frame) } }))

/-- ZONE ENVELOPE (R44): one entry for each slot of its list that is BOUND with a staged envelope, whose affirm
deadlines it renews; a frame left with no entry is dropped. COVER (R45, R46, R146): the share goes out, the affirm
deadline is renewed, and to a BOUND record it is the last share sent. The quarter of Ta is in whole ms (the model's
choice, log 19), and the time a frame takes is a free value (log 22). -/
def Obligations.ZoneEnvelopeAndCoverBegin : Prop :=
  (∀ (s : State) (e : ZoneEnvTx), s.arbiterChoice = some (.zoneEnv e) → (∀ n ∈ e.slots, n < 64) → e.slots.Nodup →
    let entries := e.slots.filterMap fun n =>
      if (s.record n).state = .bound then (s.record n).staged.map fun x => (n, x) else none
    ∃ t, exec (.zoneEnvelope e.zone) s = .next t ∧ t.link.zoneEnvs = s.link.zoneEnvs.erase e ∧
      t = { s with records := t.records, link := t.link } ∧
      (entries = [] → t.link.txn = none ∧ t.records = s.records) ∧
      (entries ≠ [] → t.link.txn = some (.begun s.now .noReply (fieldFrame 127 0x07
        (byte e.zone :: byte entries.length :: entries.flatMap fun x => byte x.1 :: envelopeBytes x.2)))) ∧
      (∀ n, n ∈ entries.map (·.1) → (t.tx n).affirmDue = none ∧ t.record n = { s.record n with
        affirm := some (s.affirmFrom s.now) }) ∧
      (∀ n, n ∉ entries.map (·.1) → t.record n = s.record n)) ∧
  (∀ (s : State) (n : Nat) (c : CoverTx), n < 64 → s.arbiterChoice = some (.cover n) → (s.tx n).cover = some c →
    ∃ t, exec (.cover n) s = .next t ∧ (t.tx n).cover = none ∧
      t.link.txn = some (.begun s.now .noReply (fieldFrame (n + 1) 0x08 (beInt 4 c.share))) ∧
      t.lastShare n = (if (s.record n).state = .bound then some c.share else s.lastShare n) ∧
      (∀ m, m ≠ n → t.lastShare m = s.lastShare m ∧ t.record m = s.record m) ∧
      t.record n = { s.record n with
        affirm := some (s.affirmFrom s.now) } ∧
      t = { s with records := t.records, link := t.link, line := { s.line with lastShare := t.line.lastShare } })

/-- The arbiter takes a pending transmission with no better one beside it: class first, then entry time, then the order
of R52; it takes one whenever the link is idle and one is pending, and none otherwise. Each pending transmission has the
class and the entry time of R51: a POLL those of its best reason, a push being of class 4 or 5 by its direction. The
frames of a claim have entry times of their own, in the order of handing (R128), told at one moment by a number of the
model; whether the frames of another claim of that moment come behind all of them, or share their entry times and go by
the lower zone number, is a free value (log 13). -/
def Obligations.ArbiterTakesTheFirst : Prop :=
  (∀ s : State,
    (s.arbiterChoice = none ↔ s.inReset ≠ none ∨ s.link.txn ≠ none ∨ s.candidates = []) ∧
    (∀ x, s.arbiterChoice = some x →
      ∃ c ∈ s.candidates, c.ref = x ∧ ∀ d ∈ s.candidates, keyBefore d.key c.key = false)) ∧
  (∀ a b c d e a' b' c' d' e' : Nat, keyBefore [a, b, c, d, e] [a', b', c', d', e'] = true ↔
    a < a' ∨ a = a' ∧ (b < b' ∨ b = b' ∧ (c < c' ∨ c = c' ∧ (d < d' ∨ d = d' ∧ e < e')))) ∧
  (∀ (s : State) (c : Candidate), c ∈ s.candidates ↔ match c.ref with
    | .cover n => n < 64 ∧ ∃ x ∈ (s.tx n).cover, c.key = [1, x.entry, 0, 0, n]
    | .poll n => n < 64 ∧ match (s.tx n).affirmDue, (s.tx n).push, (s.tx n).routine with
      | some x, _, _ => c.key = [2, x, 0, 0, n]
      | none, some x, _ => c.key = match (s.record n).active, (s.record n).staged with
        | some a, some e => if e.ceiling < a.ceiling then [4, x, 0, 0, n] else [5, x, 0, 0, n]
        | some _, none => [5, x, 0, 0, n]
        | none, _ => [4, x, 0, 0, n]
      | none, none, some x => c.key = [7, x, 0, 0, n]
      | none, none, none => False
    | .zoneEnv e => e ∈ s.link.zoneEnvs ∧ c.key = [3, e.entry, e.order, 0, e.zone]
    | .assign n => n < 64 ∧ ∃ x ∈ (s.tx n).assign, c.key = [6, x, 0, 0, n]
    | .refuse => ∃ x ∈ s.link.refuse, c.key = [6, x.2, 0, 1, 0]
    | .release n => n < 64 ∧ ∃ x ∈ (s.tx n).release, c.key = [6, x, 0, 2, n]
    | .recall => ∃ x ∈ s.link.recallTx, c.key = [6, x, 0, 3, 0]
    | .joinWindow => ∃ x ∈ s.link.joinWindow, c.key = [8, x, 0, 0, 0]) ∧
  (∀ (s : State) (z : Nat) (slots : List (List Nat)) (e : ZoneEnvTx),
    e ∈ (s.handZoneEnvs z slots).link.zoneEnvs → e ∈ s.link.zoneEnvs ∨
      (e.zone = z ∧ e.slots ∈ slots ∧ e.entry = s.now ∧ ∀ d ∈ s.link.zoneEnvs, d.entry = s.now →
        (d.zone = z ∨ Config.claimsApart s.now = true) → d.order < e.order)) ∧
  (∀ (s : State) (z : Nat) (slots : List (List Nat)), Config.claimsApart s.now = false →
    (∀ d ∈ s.link.zoneEnvs, d.entry = s.now → d.zone ≠ z) →
    (s.handZoneEnvs z slots).link.zoneEnvs.map (fun e => (e.slots, e.order)) =
      s.link.zoneEnvs.map (fun e => (e.slots, e.order)) ++ slots.zipIdx)

/-- Transactions end (R29, R30, R35): one without reply at the end of its frame; one with a reply window 300 µs after the
end of its frame, when the window closes, or with a frame begun in the window that fails its check or is not the
expected reply, when that frame has been received to its end. A frame that begins outside the window changes nothing,
and the transaction runs on. The time a frame takes is a free value (log 22). A JOIN WINDOW that ends advances the sweep
and empties the served set; a poll miss and an unanswered RELEASE change nothing else. The expected reply is the one of
R30. With no transaction that has a reply window a frame changes nothing, and the row of a discarded frame is not that
of an expected one (log 6). The row of a received frame is its end: it comes no earlier than a frame begun in the window
can end, and one that comes later than such a frame can end is of a frame begun outside; while the frame of the part is
being sent, a discarded frame has begun outside, and a REPORT, a JOIN or a RELEASED is one still to begin (the model's
choice, log 41). That an end which is taken late leaves time as it is, is the model's choice as well (log 2). On an
empty queue a transaction without reply ends of itself at the end of its frame, and a reply window in which no row has
come closes of itself (the model's choice, log 3 and log 41). -/
def Obligations.TransactionsEnd : Prop :=
  (∀ (s : State) (x : Txn), s.inReset = none → s.link.txn = some x → x.kind = .noReply → s.mayPass (x.start + x.span) →
    exec .transactionEnd s =
      .next (State.settle { s with now := max s.now (x.start + x.span), link := { s.link with txn := none } })) ∧
  (∀ s : State, s.inReset = none →
    (.row .transactionEnd ∈ s.dueEvents ↔ ∃ x ∈ s.link.txn, x.kind = .noReply ∧ x.start + x.span ≤ s.now) ∧
    (.row .replyWindowClose ∈ s.dueEvents ↔ ∃ x ∈ s.link.txn, x.kind ≠ .noReply ∧ x.start + x.span + 300 ≤ s.now)) ∧
  (∀ (s : State) (x : Txn), s.inReset = none → s.link.txn = some x → x.kind ≠ .noReply →
    (s.mayPass (x.start + x.span + 300) →
      exec .replyWindowClose s = .next (({ s with now := max s.now (x.start + x.span + 300) } : State).afterMiss x)) ∧
    (∀ bytes, let expected := (parseFieldFrame bytes).any fun y => s.isExpected y.1 y.2.1 y.2.2
      let first := x.start + x.span + Config.frameTime bytes.length
      (expected = true ∨ s.now < x.start + x.span ∨ first + 300 < s.now → exec (.fieldFrameDiscarded bytes) s = .next s) ∧
      (expected = false → x.start + x.span ≤ s.now → s.now ≤ first + 300 → s.mayPass first →
        exec (.fieldFrameDiscarded bytes) s = .next (({ s with now := max s.now first } : State).afterMiss x))) ∧
    (∀ (addr : Byte) (payload : List Byte), ∀ c ∈ [Instr.report addr payload, .join addr payload, .released addr payload],
      let first := x.start + x.span + Config.frameTime (payload.length + 5)
      (s.now < first → s.raise.notices = [] → s.lower.notices = [] → exec c s = exec c { s with now := first }) ∧
      (first + 300 < s.now → exec c s = .next s)) ∧
    (∀ (addr : Byte) (payload : List Byte), s.BegunInWindow x (payload.length + 5) →
      (s.isExpected addr .report payload = false → exec (.report addr payload) s = .next (s.afterMiss x)) ∧
      (s.isExpected addr .join payload = false → exec (.join addr payload) s = .next (s.afterMiss x)) ∧
      (s.isExpected addr .released payload = false → exec (.released addr payload) s = .next (s.afterMiss x)))) ∧
  (∀ (s : State) (x : Txn) (addr : Byte) (payload : List Byte), s.link.txn = some x →
    (s.isExpected addr .report payload = true ↔ match x.kind with
      | .poll n => addr.toNat = n + 1 ∧ (s.record n).state ≠ .vacant ∧ (s.record n).state ≠ .recalled ∧
          ∃ f ∈ parseReport payload, (f.long.isSome = true ↔ (s.record n).kind = .storage)
      | _ => False) ∧
    (s.isExpected addr .join payload = true ↔ x.kind = .joinWindow ∧ addr = 0 ∧ (parseJoin payload).isSome = true) ∧
    (s.isExpected addr .released payload = true ↔ match x.kind with
      | .release n => addr.toNat = n + 1 ∧ (s.record n).state = .retiring
      | _ => False)) ∧
  (∀ (s : State) (addr : Byte) (payload bytes : List Byte), (∀ x ∈ s.link.txn, x.kind = .noReply) →
    exec (.fieldFrameDiscarded bytes) s = .next s ∧ exec (.report addr payload) s = .next s ∧
    exec (.join addr payload) s = .next s ∧ exec (.released addr payload) s = .next s)

/-- A REPORT that answers the POLL of its slot (R5, R7, R8, R10, R12 to R16, R30, R138): it ends the transaction,
becomes the last report of the record and the part of S of an inverter, and moves the record by its flags. A record that
leaves BOUND keeps nothing staged. The Roster's claims: the first REPORT of a LAPSED inverter stages its reclaim
envelope (R14); a DORMANT inverter that wakes stages its active envelope afresh, or its first envelope (R12), and that
envelope stands at the end where the same REPORT neither asks for a raise nor meets the clamp test. Each asks for a push
POLL. Where the REPORT that wakes it asks for a raise that is granted at once, the Stager may read it after that grant
has been staged and take it for its acknowledgement: R76 sets no order, and the model's is a free value (log 5). A
usable converter's share, the one the next COVER would carry, is clipped to the limits it reports (R141, R142); that the
Line Controller reads the REPORT after the Roster has acted on its flags is the model's choice (log 37). For a record
without an envelope the amount it asks for is taken from 0 kW (log 30). That a REPORT which lapses a record does not
begin its reclaim (log 16), and that these claims are taken after the whole reading of the REPORT (log 17), is the
model's reading. A change of the cover condition raises COVER CONDITION, and one to CAUTION or NONE with early lowering
on makes every zone in TIMING request (R123, R151). The row is the end of a reply begun in the reply window (R29; the
model's choice, log 41), by the time its frame takes, a free value (log 22). -/
def Obligations.ReportMovesTheRecord : Prop :=
  ∀ (s : State) (n : Nat) (x : Txn) (addr : Byte) (payload : List Byte) (f : ReportFields),
    n < 64 → s.inReset = none → s.link.txn = some x → x.kind = .poll n →
    s.BegunInWindow x (payload.length + 5) → addr.toNat = n + 1 →
    parseReport payload = some f → f.fits (s.record n).kind = true →
    (s.record n).state ≠ .vacant → (s.record n).state ≠ .recalled →
    ∃ t, exec (.report addr payload) s = .next t ∧ t.link.txn = none ∧ t.now = s.now ∧ t.policy = s.policy ∧
      (t.record n).lastReport = some (reportOf (s.record n).kind f s.now) ∧
      ((s.record n).kind = .inverter → t.part n = some f.output) ∧
      (∀ m, m ≠ n → t.part m = s.part m ∧ t.record m = { s.record m with staged := (t.record m).staged }) ∧
      (let old := s.record n
       let renewed := some (s.now + s.policy.leaseInterval * 1000)
       let dormant := some (s.now + 4 * s.policy.leaseInterval * 1000)
       let lapses : Prop := (t.record n).state = .lapsed ∧ (t.record n).lease = none ∧ (t.record n).staged = none ∧
         (t.record n).active = old.active ∧
         (t.record n).lapses = min (old.lapses + 1) 255 ∧ t.port.causes &&& 0x008#12 = 0x008#12
       (t.port.causes &&& 0x200#12 =
         if t.line.condition = s.line.condition then s.port.causes &&& 0x200#12 else 0x200#12) ∧
       s.TimingZones t (s.policy.early = true ∧ t.line.condition ≠ .full ∧ t.line.condition ≠ s.line.condition) ∧
       (old.state = .addressed → (t.record n).state = .addressed ∧ (t.record n).lease = renewed) ∧
       (old.state = .bound ∨ old.state = .dormant →
         (f.fallback = true → lapses) ∧
         (f.fallback = false → f.dormant = true → (t.record n).state = .dormant ∧ (t.record n).lease = dormant ∧
           (t.record n).active = old.active ∧ (old.state = .bound → (t.record n).staged = none)) ∧
         (f.fallback = false → f.dormant = false → (t.record n).state = .bound ∧ (t.record n).lease = renewed)) ∧
       (old.state = .lapsed →
         if (old.kind = .storage ∧ f.fallback = false) ∨
            (old.kind = .inverter ∧ ∃ e ∈ old.staged, f.bank = some e.bank ∧ f.ceiling = e.ceiling) then
           (t.record n).state = .bound ∧ (t.record n).lease = renewed ∧
           (old.kind = .inverter → (t.record n).active = old.staged)
         else (t.record n).state = .lapsed ∧ (t.record n).lease = old.lease ∧ (t.record n).active = old.active) ∧
       (∀ l ∈ f.long, (t.record n).usable = true →
         let discharge : Int := (if min l.charge 1000 ≤ s.policy.reserve then 0 else l.discharge : Nat)
         let next := fun u : State => match (u.tx n).cover with | some c => c.share | none => (u.lastShare n).getD 0
         let clipped := max (min (next s) discharge) (-(l.chargeLimit : Int))
         next t ≤ discharge ∧ -(l.chargeLimit : Int) ≤ next t ∧
         (old.state = .bound → (t.tx n).cover = if clipped = next s then (s.tx n).cover else
           some { share := clipped, entry := match (s.tx n).cover with | some c => c.entry | none => s.now })) ∧
       (old.state = .retiring → (t.record n).state = .retiring ∧ (t.record n).lease = old.lease) ∧
       (old.state = .lapsed → old.kind = .inverter → old.staged = none →
         let base := f.output + old.rating * s.policy.clampMargin / 1000
         let limit := match old.active with
           | some a => min a.ceiling base
           | none => base
         (t.record n).staged = some (old.claimEnvelope limit (s.descentRate old)) ∧ (t.tx n).push.isSome = true) ∧
       (old.state = .dormant → old.kind = .inverter → f.fallback = false → f.dormant = false → old.staged = none →
         s.QueueOk →
         (t.record n).staged.isSome = true ∧ (t.tx n).push.isSome = true ∧
         ((t.record n).active = old.active ∨
           ∃ k ∈ t.ticketOf n, ∃ y ∈ t.ticket k, y.granted = s.now ∧
             ∃ e ∈ (t.record n).active, e.ceiling = y.target ∧ e.rate = y.rate ∧ f.acknowledges e = true) ∧
         (min f.available old.rating - (old.active.map (·.ceiling)).getD 0 ≤ old.rating * s.policy.raiseThr / 1000 →
          (t.record n).active = old.active) ∧
         (min f.available old.rating - (old.active.map (·.ceiling)).getD 0 ≤ old.rating * s.policy.raiseThr / 1000 →
          (∀ a ∈ old.active, a.ceiling ≤ min f.available old.rating + old.rating * s.policy.clampGap / 1000) →
          (t.record n).staged = some (match old.active with
            | some a => old.claimEnvelope a.ceiling a.rate
            | none => old.claimEnvelope (min f.output old.rating) (s.upRate old)))))

/-- The applied bank and ceiling of a REPORT from a BOUND inverter with a staged envelope and both flags clear (R63 to
R65): the staged bank with the staged ceiling makes the staged envelope active and the push lapse; with another ceiling
it advances ACK MISMATCHES, raises HEALTH ADVISORY where the counter comes from below its threshold to it (R26), and
asks for a push; another bank or NONE leaves both. Where the REPORT enters the record in the queue and the entry is
granted at once, the Stager may read it after that grant has been staged: R76 sets no order between the two blocks, and
the model's is a free value (log 5). The clamp test of the REPORT is then made (R67): where it is met, a ticket with a
target above the clamp level is cut, its cut envelope staged, and the clamp ceiling is staged over what then stands
where it is the lower one, so that no ceiling above the clamp level stands newest (R68). Such a REPORT makes no raise
request: the entry of the record is withdrawn, none is made, and no ticket is granted to it; and where the record has no
entry and the REPORT completes no ticket, the outcome is the same whichever of the two blocks reads it first (R70). A
REPORT that completes the ticket as well either finds it completed and has nothing to cut, or cuts it and has nothing to
complete (log 5); that the cut ceiling then stands where it lies at or below the clamp ceiling is the model's reading of
R68 and R69 beside R70 (log 42). A place of the ticket table that is taken again is told by its sequence number (log
28). The row is the end of a reply begun in the reply window (R29; the model's choice, log 41), by the time its frame
takes, a free value (log 22). -/
def Obligations.ReportAcknowledgesTheEnvelope : Prop :=
  ∀ (s : State) (n : Nat) (x : Txn) (addr : Byte) (payload : List Byte) (f : ReportFields),
    n < 64 → s.inReset = none → s.link.txn = some x → x.kind = .poll n →
    s.BegunInWindow x (payload.length + 5) → addr.toNat = n + 1 →
    parseReport payload = some f → f.long = none → f.fallback = false → f.dormant = false →
    (s.record n).state = .bound → (s.record n).kind = .inverter → s.QueueOk →
    (∀ e, (s.record n).staged = some e →
      ∃ t, exec (.report addr payload) s = .next t ∧
        (s.AckRead t n f e ∨
          (s.queued n = false ∧ e.ceiling < min f.available (s.record n).rating ∧
            ∃ k ∈ t.ticketOf n, ∃ y ∈ t.ticket k, y.granted = s.now ∧
              s.AckRead t n f { e with ceiling := y.target, rate := y.rate }))) ∧
    (let r := s.record n
     let u := r.afterAck f
     let base := min f.available r.rating
     let level := base + r.rating * s.policy.clampMargin / 1000
     let descent := s.descentRate r
     let ticket := (s.ticketOf n).bind s.ticket
     let cuts := ticket.any fun y => decide (level < y.target)
     let done := ticket.any fun y => decide (y.target ≤ f.output + r.rating * 10 / 1000)
     ∀ c, u.effCeiling = some c → base + r.rating * s.policy.clampGap / 1000 < c →
       (∃ t, exec (.report addr payload) s = .next t ∧ (t.record n).active = u.active ∧
         (∀ y ∈ (t.record n).newestCeiling, y ≤ level) ∧
         t.queued n = false ∧ t.ticketOf n = (if cuts || done then none else s.ticketOf n) ∧
         (cuts = true → ∀ k ∈ s.ticketOf n, ∀ y ∈ t.ticket k, s.raise.nextSeq ≤ y.seq) ∧
         (t.record n).slowRaises = r.slowRaises ∧ (t.record n).lapses = r.lapses ∧
         ((cuts = false ∨ done = true) ∧ (t.record n).staged = (u.afterClamp level descent).staged ∨
           ∃ y ∈ ticket, level < y.target ∧
             (t.record n).staged = ((u.afterCut y f.output descent).afterClamp level descent).staged)) ∧
       (s.queued n = false → done = false → ∀ stagerFirst : Bool,
         let idle : State := { s with choices := s.choices + 1, link := { s.link with txn := none } }
         exec (.report addr payload) s = .next (idle.takeReport stagerFirst n f).settle))

/-- A JOIN of a new serial in a join window (R3, R35, R37, R38): it takes the lowest VACANT slot of its kind, ASSIGN is
queued and UNIT WAITING raised, or with no such slot a REFUSE is queued and ROSTER FULL raised; the sweep advances. The
row is the end of a reply begun in the reply window (R29; the model's choice, log 41), by the time its frame takes, a
free value (log 22). -/
def Obligations.JoinOfANewUnit : Prop :=
  ∀ (s : State) (x : Txn) (payload : List Byte) (f : JoinFields),
    s.inReset = none → s.link.txn = some x → x.kind = .joinWindow →
    s.BegunInWindow x (payload.length + 5) → parseJoin payload = some f →
    (∀ n < 64, (s.record n).state ≠ .vacant → (s.record n).serial ≠ f.serial) →
    ∃ t, exec (.join 0 payload) s = .next t ∧ t.link.txn = none ∧ t.link.sweep = (s.link.sweep + 1) % 8 ∧
      t.link.served = Vector.replicate 64 false ∧ t.now = s.now ∧ t.policy = s.policy ∧ t.raise = s.raise ∧
      t.lower = s.lower ∧
      (∀ n < 64, (s.record n).state = .vacant → slotKind s.policy.nr n = f.kind →
        (∀ m < n, (s.record m).state = .vacant → slotKind s.policy.nr m ≠ f.kind) →
        t.record n = { UnitRecord.vacant with
          state := .addressed, kind := f.kind, serial := f.serial, rating := f.rating,
          lease := some (s.now + s.policy.leaseInterval * 1000),
          bindDeadline := some (s.now + s.policy.bindTimeout * 1000000) } ∧
        (∀ m, m ≠ n → t.record m = s.record m) ∧ (t.tx n).assign.isSome = true ∧
        t.port.causes = s.port.causes ||| 0x001#12 ∧ t.link.refuse = s.link.refuse ∧
        t.part n = (if f.kind = .inverter then some 0 else s.part n)) ∧
      ((∀ n < 64, ¬ ((s.record n).state = .vacant ∧ slotKind s.policy.nr n = f.kind)) →
        t.records = s.records ∧ t.link.refuse = some (f.serial, s.now) ∧ t.port.causes = s.port.causes ||| 0x002#12)

/-- A JOIN whose serial matches a record (R39): it is handled by the state of that record, the sweep advances, and the
record keeps its kind, serial and rating. The row is the end of a reply begun in the reply window (R29; the model's
choice, log 41), by the time its frame takes, a free value (log 22). -/
def Obligations.JoinOfAKnownUnit : Prop :=
  ∀ (s : State) (x : Txn) (payload : List Byte) (f : JoinFields) (n : Nat),
    n < 64 → s.inReset = none → s.link.txn = some x → x.kind = .joinWindow →
    s.BegunInWindow x (payload.length + 5) → parseJoin payload = some f → s.SerialsOk →
    (s.record n).state ≠ .vacant → (s.record n).serial = f.serial →
    ∃ t, exec (.join 0 payload) s = .next t ∧ t.link.txn = none ∧ t.link.sweep = (s.link.sweep + 1) % 8 ∧
      t.link.served = Vector.replicate 64 false ∧ t.now = s.now ∧ t.policy = s.policy ∧
      ((s.record n).state ≠ .retiring →
        (t.tx n).assign.isSome = true ∧ (t.record n).kind = (s.record n).kind ∧
        (t.record n).serial = (s.record n).serial ∧ (t.record n).rating = (s.record n).rating ∧
        (t.record n).revision = (s.record n).revision) ∧
      (((s.record n).state = .recalled ∨ (s.record n).state = .lapsed) →
        (t.record n).state = .lapsed ∧ (t.record n).lapses = (s.record n).lapses ∧ (t.record n).staged = none) ∧
      (((s.record n).state = .bound ∨ (s.record n).state = .dormant) →
        (t.record n).state = .lapsed ∧ (t.record n).lapses = min ((s.record n).lapses + 1) 255 ∧
        (t.record n).staged = none ∧ t.port.causes &&& 0x008#12 = 0x008#12) ∧
      ((s.record n).state = .addressed → t.record n = s.record n ∧ t.port.causes = s.port.causes) ∧
      ((s.record n).state = .retiring → t.port.causes &&& 0x040#12 = 0x040#12 ∧
        ((∃ m < 64, (t.record m).state = .addressed ∧ (t.record m).serial = f.serial ∧ (t.record m).revision = 0) ∨
          t.link.refuse = some (f.serial, s.now)))

/-- A retirement ends (R16): by RELEASED in the window of its RELEASE or by its release deadline the record becomes
VACANT and RETIRE DONE is raised. It begins by the bind deadline of an ADDRESSED record (R8), with BIND TIMEOUT raised.
That time is then at least the deadline is the model's choice (log 2). A record that becomes VACANT has its entries in
live claims marked freed (R4, R132). The row is the end of a reply begun in the reply window (R29; the model's choice,
log 41), by the time its frame takes, a free value (log 22). -/
def Obligations.RetirementsRunTheirCourse : Prop :=
  (∀ (s : State) (n : Nat) (x : Txn) (addr : Byte), n < 64 → s.inReset = none → s.link.txn = some x →
    x.kind = .release n → s.BegunInWindow x 5 → addr.toNat = n + 1 → (s.record n).state = .retiring →
    ∃ t, exec (.released addr []) s = .next t ∧ t.record n = .vacant ∧ t.tx n = .empty ∧ t.link.txn = none ∧
      t.part n = none ∧ t.port.causes &&& 0x040#12 = 0x040#12 ∧ t.now = s.now ∧ t.policy = s.policy ∧
      s.EntriesFreed t n ∧
      (∀ m, m ≠ n → t.record m = { s.record m with staged := (t.record m).staged })) ∧
  (∀ (s : State) (n d : Nat), n < 64 → s.inReset = none → (s.record n).state = .retiring →
    (s.record n).releaseDeadline = some d → s.mayPass d →
    ∃ t, exec (.releaseDeadlineExpiry n) s = .next t ∧ t.record n = .vacant ∧ t.tx n = .empty ∧
      t.part n = none ∧ t.port.causes &&& 0x040#12 = 0x040#12 ∧ t.now = max s.now d ∧ t.policy = s.policy ∧
      s.EntriesFreed t n ∧
      (∀ m, m ≠ n → t.record m = { s.record m with staged := (t.record m).staged })) ∧
  (∀ (s : State) (n d : Nat), n < 64 → s.inReset = none → (s.record n).state = .addressed →
    (s.record n).bindDeadline = some d → s.mayPass d →
    ∃ t, exec (.bindTimeout n) s = .next t ∧ t.record n = { s.record n with
        state := .retiring, staged := none, affirm := none, lease := none, bindDeadline := none,
        releaseDeadline := none } ∧
      t.tx n = { SlotTx.empty with release := some (max s.now d) } ∧ t.port.causes = s.port.causes ||| 0x004#12 ∧
      t.now = max s.now d ∧ t.policy = s.policy ∧
      (∀ m, m ≠ n → t.record m = { s.record m with staged := (t.record m).staged }))

/-- What the rows of the field link and of the timers leave as it was: the settings, the profile table, the plant
limits, the sensor map, the hold request flag, the port but for its causes, of which none is cleared; and what one block
alone holds, but for the rows of that block. The notices that wait are left, or have all been taken before time passes
(log 36). -/
def Obligations.FieldAndTimerRowsLeaveTheRest : Prop :=
  ∀ (c : Instr) (s t : State), fieldOrTimer c = true → exec c s = .next t →
    t.policy = s.policy ∧ t.profiles = s.profiles ∧ t.inReset = s.inReset ∧ t.lastReset = s.lastReset ∧
    t.resetAt = s.resetAt ∧ t.port = { s.port with causes := t.port.causes, attn := t.port.attn } ∧
    s.port.causes &&& t.port.causes = s.port.causes ∧ t.line.lup = s.line.lup ∧ t.line.ldown = s.line.ldown ∧
    t.shade.map = s.shade.map ∧ t.raise.holdLine = s.raise.holdLine ∧ t.raise.holdFlag = s.raise.holdFlag ∧
    (c ≠ .recallWindowExpiry → t.governor = s.governor) ∧
    (c ≠ .holdFilterExpiry → t.raise.holdFiltered = s.raise.holdFiltered ∧ t.raise.holdTimer = s.raise.holdTimer ∧
      t.raise.effHold = s.raise.effHold) ∧
    (c ≠ .lineStep → t.line.pl = s.line.pl ∧ t.line.timer = s.line.timer ∧ t.line.cover = s.line.cover ∧
      t.line.given = s.line.given ∧ t.line.episode = s.line.episode ∧ t.line.fallBreaches = s.line.fallBreaches ∧
      t.line.riseBreaches = s.line.riseBreaches) ∧
    (trackerTimer c = false → t.shade = s.shade ∧
      ((t.raise.notices = s.raise.notices ∧ t.lower.notices = s.lower.notices) ∨
        (t.raise.notices = [] ∧ t.lower.notices = []))) ∧
    (arbiterRow c = false → ∀ x, t.link.txn = some x → s.link.txn = some x)

/-! ### Timers and input pins -/

/-- A lease expires (R8, R11, R12, R13): an ADDRESSED record becomes VACANT with no cause, its entries in live claims
marked freed (R4, R132); a BOUND or DORMANT one enters LAPSED, counted, with UNIT LAPSED raised: its ticket has ended
with no claim left standing, its entry is gone, an inverter whose LAPSES is then at its threshold is demoted with UNIT
DEMOTED raised (R25), and to a converter a COVER is pending (R48). A record whose LAPSES is already 255 is demoted by it
as well (the model's reading, log 20). That time is then at least the deadline is the model's choice (log 2). The
quarter of Ta is in whole ms (the model's choice, log 19). -/
def Obligations.LeaseExpiryLapsesTheRecord : Prop :=
  ∀ (s : State) (n d : Nat), n < 64 → s.inReset = none → (s.record n).lease = some d → s.mayPass d →
    ((s.record n).state = .addressed →
      ∃ t, exec (.leaseExpiry n) s = .next t ∧ t.now = max s.now d ∧ t.record n = .vacant ∧ t.tx n = .empty ∧
        t.port.causes = s.port.causes ∧ t.policy = s.policy ∧
        s.EntriesFreed t n ∧
        (∀ m, m ≠ n → t.record m = { s.record m with staged := (t.record m).staged })) ∧
    (((s.record n).state = .bound ∨ (s.record n).state = .dormant) → s.QueueOk →
      ∃ t, exec (.leaseExpiry n) s = .next t ∧ t.now = max s.now d ∧
        (let old := s.record n
         let now := max s.now d
         let lapses := min (old.lapses + 1) 255
         let demotes := !old.demoted &&
           (old.kind = .inverter && s.policy.lapsesThr ≠ 0 && decide (s.policy.lapsesThr ≤ lapses))
         t.record n = { old with
           state := .lapsed, staged := none, lease := none, bindDeadline := none, lapses := lapses,
           demoted := old.demoted || demotes,
           affirm := if old.kind = .storage then some (s.affirmFrom now) else none } ∧
         t.port.causes = s.port.causes ||| 0x008#12 ||| (if demotes then 0x010#12 else 0) |||
           (if t.line.condition = s.line.condition then 0 else 0x200#12) ∧
         (t.tx n).cover = (if old.kind = .storage then
             if old.state = .dormant ∧ (s.tx n).cover.isSome = true then (s.tx n).cover
             else some { share := 0, entry := now }
           else (s.tx n).cover) ∧
         (t.tx n).push = none ∧ t.lastShare n = if old.usable then none else s.lastShare n) ∧
        t.ticketOf n = none ∧ (s.raise.queue = [] → t.raise.riseClaimed = s.raise.riseClaimed -
          (((s.ticketOf n).bind s.ticket).map (·.rate)).getD 0) ∧
        t.policy = s.policy ∧ t.queued n = false ∧
        (∀ m, m ≠ n → t.record m = { s.record m with staged := (t.record m).staged }))

/-- The affirm-due point of a slot (R47, R48): an inverter's POLL is marked affirm-due; a converter with no COVER
pending has one queued. The expiry of the affirm deadline itself changes nothing but time (R47). That time is then at
least the deadline is the model's choice (log 2). -/
def Obligations.AffirmPointsQueueTransmissions : Prop :=
  (∀ (s : State) (n d : Nat) (a : Affirm), n < 64 → s.inReset = none → (s.record n).affirm = some a → a.due = some d → s.mayPass d →
    ∃ t, exec (.affirmDue n) s = .next t ∧ t.now = max s.now d ∧
      t.record n = { s.record n with affirm := some { a with due := none } } ∧
      (∀ m, m ≠ n → t.record m = s.record m) ∧
      ((s.record n).kind = .inverter → ((s.record n).state = .bound ∨ (s.record n).state = .lapsed) →
        (t.tx n).affirmDue.isSome = true) ∧
      ((s.record n).kind = .storage → (s.tx n).cover = none → (t.tx n).cover = some
        { share := if (s.record n).state = .bound then (s.lastShare n).getD 0 else 0, entry := max s.now d }) ∧
      ((s.tx n).cover ≠ none → (t.tx n).cover = (s.tx n).cover) ∧
      t = { s with now := t.now, records := t.records, link := t.link }) ∧
  (∀ (s : State) (n : Nat) (a : Affirm), s.inReset = none → (s.record n).affirm = some a → s.mayPass a.deadline →
    exec (.affirmDeadlineExpiry n) s = .next (State.settle { s with now := max s.now a.deadline }))

/-- A ticket expires (R86): its place is free, and its rate has left rise claimed, which stays the sum of the live
rates; an evaluation may have granted anew, and with an empty queue the place is free and rise claimed is lower by the
rate. SLOW RAISES of its record advances, and a record then at its threshold is demoted with UNIT DEMOTED raised and its
entry gone. A record whose SLOW RAISES is already 255 is demoted by it as well (the model's reading, log 20); a place
that is taken again is told by its sequence number (the model's, log 28). That time is then at least the deadline is the
model's choice (log 2). -/
def Obligations.TicketExpiryEndsTheTicket : Prop :=
  ∀ (s : State) (k : Nat) (x : Ticket), k < 16 → s.inReset = none → s.ticket k = some x → s.RiseOk → s.QueueOk →
    s.mayPass x.expiry →
    ∃ t, exec (.ticketExpiry k) s = .next t ∧ t.now = max s.now x.expiry ∧
      (∀ y ∈ t.ticket k, y.seq ≥ s.raise.nextSeq ∧ y.slot ≠ x.slot) ∧
      (let r := s.record x.slot
       let slow := min (r.slowRaises + 1) 255
       let demotes := !r.demoted && (s.policy.slowThr ≠ 0 && decide (s.policy.slowThr ≤ slow))
       t.record x.slot = { r with slowRaises := slow, demoted := r.demoted || demotes } ∧
       t.port.causes = s.port.causes ||| (if demotes then 0x010#12 else 0)) ∧
      t.ticketOf x.slot = none ∧ t.queued x.slot = false ∧ t.RiseOk ∧
      (s.raise.queue = [] → t.ticket k = none ∧ t.raise.riseClaimed = s.raise.riseClaimed - x.rate ∧
        ∀ j, j ≠ k → t.ticket j = s.ticket j) ∧
      (∀ m, m ≠ x.slot → t.record m = { s.record m with staged := (t.record m).staged }) ∧
      t = { s with now := t.now, records := t.records, link := t.link, raise := t.raise, port := t.port }

/-- The HOLD input (R92, R94): a level other than the filtered one starts the 20 ms, a return stops them; when they have
run, the level of the line is the filtered level, and a change of effective hold raises HOLD CHANGED. Where it becomes
yes the ticket of every record that is not exempt is cut, at the lower of its target and the higher of its start and the
last output, those of exempt records stand, the queue entries are kept, and grant evaluation runs (R87, R95); where it
becomes no grant evaluation runs (R80); where it stays nothing else changes. That time is then at least the deadline is
the model's choice (log 2). -/
def Obligations.HoldLineIsFiltered : Prop :=
  (∀ (s : State) (level : Bool), s.inReset = none → s.raise.holdLine ≠ level →
    exec (.holdInputChange level) s = .next { s with raise := { s.raise with
      holdLine := level
      holdTimer := if level = s.raise.holdFiltered then none else some (s.now + 20000) } }) ∧
  (∀ (s : State) (level : Bool), s.inReset ≠ none →
    exec (.holdInputChange level) s = .next { s with raise := { s.raise with holdLine := level } }) ∧
  (∀ (s : State) (d : Nat), s.inReset = none → s.raise.holdTimer = some d → s.mayPass d →
    ∃ t, exec .holdFilterExpiry s = .next t ∧ t.now = max s.now d ∧ t.raise.holdFiltered = s.raise.holdLine ∧
      t.raise.holdTimer = none ∧ t.raise.effHold = (s.raise.holdLine || s.raise.holdFlag) ∧
      t.raise.holdFlag = s.raise.holdFlag ∧
      t.port.causes = (if t.raise.effHold = s.raise.effHold then s.port.causes else s.port.causes ||| 0x400#12) ∧
      (s.raise.effHold = false → t.raise.effHold = true →
        (∀ k < 16, ∀ x ∈ t.ticket k, (t.record x.slot).exempt = true) ∧ (s.QueueOk → s.HoldCuts t)) ∧
      (t.raise.effHold = false ∨ s.raise.effHold = true →
        let u : State := { s with
          now := t.now
          raise := { s.raise with
            holdTimer := none, holdFiltered := s.raise.holdLine, effHold := s.raise.holdLine || s.raise.holdFlag } }
        t = State.settle { (if s.raise.effHold = t.raise.effHold then u else u.grantEvaluation) with port := t.port }) ∧
      (∀ m, t.record m = { s.record m with staged := (t.record m).staged }) ∧
      t = { s with now := t.now, records := t.records, link := t.link, raise := t.raise, port := t.port })

/-- The sensor lines (R102): a level other than the filtered one starts the debounce timer with it as the candidate, a
return stops it; at the expiry the candidate is the filtered level and the timer is stopped. That time is then at least
the deadline is the model's choice (log 2). -/
def Obligations.SensorLinesAreDebounced : Prop :=
  (∀ (s : State) (i : Nat) (level : Bool), i < 16 → s.inReset = none → (s.sensor i).line ≠ level →
    exec (.sensorLineChange i level) s = .next (s.setSensor i { s.sensor i with
      line := level
      timer := if level = (s.sensor i).filtered then none else some (level, s.now + s.policy.debounce * 1000) })) ∧
  (∀ (s : State) (i d : Nat) (level : Bool), i < 16 → s.inReset = none → (s.sensor i).timer = some (level, d) →
    s.mayPass d →
    ∃ t, exec (.debounceExpiry i) s = .next t ∧ t.now = max s.now d ∧
      t.sensor i = { s.sensor i with filtered := level, timer := none } ∧
      (∀ j, j ≠ i → t.sensor j = s.sensor j) ∧ t.shade.map = s.shade.map ∧ t.line = s.line ∧ t.policy = s.policy ∧
      t.port = s.port ∧ t.governor = s.governor)

/-- A debounced change acts on the zones by their states (R103, R108, R109, R110): each zone of a shading sensor's list,
each zone in which a lit sensor is a source; no other zone changes. A SHADED zone whose last source has cleared starts
its clear time with the lead of that source. The notices of R113 are given, zone by zone, a cancelled forecast marked
so, and wait for their allocators; nothing else changes. That all zones change before a notice is taken is the model's
reading (log 14); that the notices stand in the order of the sensor's list for a shading, and of the zones for a
clearing, is its choice (log 39). That time is then at least the deadline is the model's choice (log 2). The Raise
Allocator takes the notice that a zone has left CLEAR (R88): each BOUND inverter of the zone has its ticket cut and its
entry removed, then one evaluation runs, to its end; a ticket of another zone stands. A notice of a return to CLEAR
changes nothing. The Lowering Allocator takes its notices by the phase of the zone: a zone in IDLE works its start time
from the arrival of the notice, and requests where it is past or early lowering calls for it, or is DEFERRED while
RECALLING (R121); a zone in TIMING works it again; where the zone waits, the wait list, with every zone it held, is put
in the order of the arrivals, and claim evaluation walks it where its head has changed (R122, R125, R126); in every
other phase nothing changes. A start time equal to now is not past, the model's choice (log 18). That a zone requests
also while a notice of its return to CLEAR waits is the model's reading, and the place in the list of a zone without an
arrival time is its choice (log 33). -/
def Obligations.DebouncedChangesMoveTheZones : Prop :=
  (∀ (s : State) (i d : Nat), i < 16 → s.inReset = none → s.mayPass d → s.MapOk →
    ((s.sensor i).timer = some (true, d) →
      ∃ t, exec (.debounceExpiry i) s = .next t ∧
        (∀ e ∈ look s.shade.map i [],
          let x := s.zone e.zone
          let source : Source := { sensor := i, arrival := max s.now d + e.lead * 1000000, lead := e.lead, cleared := false }
          t.zone e.zone = match x.state with
            | .clear => { x with state := .forecast, sources := [source], arrival := some source.arrival }
            | .forecast => { x with sources := insertSource source x.sources,
                                    arrival := earliestArrival (insertSource source x.sources) }
            | .shaded => { x with sources := insertSource source x.sources, clearTime := none }) ∧
        (∀ z, z ∉ (look s.shade.map i []).map (·.zone) → t.zone z = s.zone z) ∧
        t.shade.map = s.shade.map ∧
        s.Gives t (max s.now d) ((look s.shade.map i []).flatMap fun e => noticeOf e.zone (s.zone e.zone) (t.zone e.zone))) ∧
    ((s.sensor i).timer = some (false, d) →
      ∃ t, exec (.debounceExpiry i) s = .next t ∧
        (∀ z < 16, (∀ y ∈ (s.zone z).sources, y.sensor ≠ i) → t.zone z = s.zone z) ∧
        (∀ z < 16, (∃ y ∈ (s.zone z).sources, y.sensor = i) → (s.zone z).state = .forecast →
          let rest := (s.zone z).sources.filter fun y => y.sensor ≠ i
          t.zone z = if rest = [] then { s.zone z with state := .clear, sources := [], arrival := none }
            else { s.zone z with sources := rest, arrival := earliestArrival rest }) ∧
        (∀ z < 16, ∀ y, (s.zone z).sources.find? (fun y => y.sensor = i) = some y → (s.zone z).state = .shaded →
          let sources := (s.zone z).sources.map fun y => if y.sensor = i then { y with cleared := true } else y
          t.zone z = { s.zone z with
            sources := sources
            clearTime := if sources.all (·.cleared) then some (max s.now d + y.lead * 1000000)
              else (s.zone z).clearTime }) ∧
        t.shade.map = s.shade.map ∧
        s.Gives t (max s.now d) (allSixteen.flatMap fun z => noticeOf z (s.zone z) (t.zone z)))) ∧
  (∀ (s : State) (z a : Nat) (rest : List Notice), s.raise.notices = .leftClear z a :: rest → s.QueueOk →
    let t := s.takeRaiseNotice
    (∀ n < 64, let r := s.record n
      if r.boundInverter = true ∧ r.inZone z = true then
        t.ticketOf n = none ∧ t.queued n = false ∧
        (∀ k ∈ s.ticketOf n, ∀ x ∈ s.ticket k,
          t.record n = { r with
            staged := some (r.claimEnvelope (min x.target (max x.start r.lastOutput)) (s.descentRate r)) })
      else
        t.record n = { r with staged := (t.record n).staged } ∧ (∀ k ∈ s.ticketOf n, t.ticket k = s.ticket k) ∧
        (s.queued n = true → t.queued n = true ∨ (t.ticketOf n).isSome = true)) ∧
    (∃ u : State, ({ s with raise := { s.raise with notices := rest } } : State).ZoneCut u z ∧ t = u.grantEvaluation) ∧
    t.grantEvaluation = t ∧
    t.raise.notices = rest ∧ t = { s with records := t.records, link := t.link, raise := t.raise }) ∧
  (∀ (s : State) (z : Nat) (b : Bool) (rest : List Notice), s.raise.notices = .returnedClear z b :: rest →
    s.takeRaiseNotice = { s with raise := { s.raise with notices := rest } }) ∧
  (∀ (s : State) (z a : Nat) (rest : List Notice), z < 16 → s.lower.notices = .leftClear z a :: rest →
    let t := s.takeLowerNotice
    (s.phase z = .idle → if s.governor = .running then s.Starts t s.now z a s.lowersEarly else t.phase z = .deferred) ∧
    (s.phase z ≠ .idle → t = { s with lower := { s.lower with notices := rest } }) ∧
    t.lower.notices = rest ∧ (∀ m, t.record m = { s.record m with staged := (t.record m).staged }) ∧
    t = { s with records := t.records, link := t.link, lower := t.lower }) ∧
  (∀ (s : State) (z a : Nat) (rest : List Notice), z < 16 → s.WaitOk → s.lower.notices = .arrivalChanged z a :: rest →
    let t := s.takeLowerNotice
    (s.governor = .running → (s.phase z).code = 1 → s.Starts t s.now z a false) ∧
    (s.phase z = .waiting → (∀ y ∈ t.lower.waitList, y ∈ s.lower.waitList) ∧ t.lower.waitList.Pairwise s.StandsBefore ∧
      ∃ zones : List Nat, zones.Perm s.lower.waitList ∧ zones.Pairwise s.StandsBefore ∧
        let moved : State := { s with lower := { s.lower with waitList := zones, notices := rest } }
        t = if zones.head? = s.lower.waitList.head? then moved else moved.claimEvaluation) ∧
    ((s.phase z).code ≠ 1 → s.phase z ≠ .waiting → t = { s with lower := { s.lower with notices := rest } }) ∧
    t.lower.notices = rest ∧ (∀ m, t.record m = { s.record m with staged := (t.record m).staged }) ∧
    t = { s with records := t.records, link := t.link, lower := t.lower })

/-- The rates of R53, the effective ceiling of R58 and the plan of R120; a grant and a claim are made with the values of
R83 and R127: the ticket of a grant, and the claim of a plan. Grant evaluation takes the first entry, from the head of
the queue, whose zone is CLEAR and which effective hold does not hold, grants it in the lowest free place and goes on
with what is left; where no grant can be made, and while RECALLING, it ends and changes nothing (R78, R80 to R82). What
a REPORT of a BOUND inverter that does not meet the clamp test does in the Raise Allocator (R74, R75, R85): the
completion of its ticket, the update or withdrawal of its entry, or a new entry. Where the REPORT also acknowledges a
staged envelope, the amount wanted is worked from the ceiling before or after it: R76 sets no order, and the model's is
a free value (log 5). The sequence number of a grant is the model's own (log 28), and so is the 0 kW from which the
amount is taken for a record without an envelope (log 30). The row is the end of a reply begun in the reply window (R29;
the model's choice, log 41), by the time its frame takes, a free value (log 22). -/
def Obligations.GrantsAndClaimsHaveTheirValues : Prop :=
  (List.range 16).map rateScale = [0, 10, 20, 30, 40, 50, 60, 80, 100, 120, 150, 200, 250, 300, 500, 1000] ∧
  (∀ (s : State) (r : UnitRecord),
    (∀ b, r.binding = some b → s.upRate r = r.rating * rateScale (s.profile b.profile).up / 1000 ∧
      s.downRate r = r.rating * rateScale (s.profile b.profile).down / 1000) ∧
    s.descentRate r = (if s.downRate r = 0 then r.rating else s.downRate r) ∧
    (∀ a e, r.active = some a → r.staged = some e → r.effCeiling = some (max a.ceiling e.ceiling)) ∧
    (r.active = none → r.effCeiling = r.staged.map (·.ceiling)) ∧
    (r.staged = none → r.effCeiling = r.active.map (·.ceiling))) ∧
  (∀ (s : State) (z : Nat) (m : Member), m ∈ s.planMembers z ↔
    (let r := s.record m.slot
     let floor := r.rating * (s.zone z).floor / 1000
     m.slot < 64 ∧ r.state = .bound ∧ r.kind = .inverter ∧ r.inZone z = true ∧ 0 < s.downRate r ∧ m.down = s.downRate r ∧
     r.effCeiling.getD 0 = m.ceiling ∧ floor < m.ceiling ∧ m.floor = floor ∧
     m.target = match r.staged with
       | some e => min e.ceiling floor
       | none => floor)) ∧
  (∀ (s : State) (z : Nat), ((s.planMembers z).map (·.slot)).Pairwise (· < ·)) ∧
  (∀ (s : State) (members : List Member), s.planDuration members =
    if members = [] then 0
    else
      let rate := min (members.map (·.down)).sum s.line.ldown
      ((members.map fun m => m.ceiling - m.floor).sum * 60 + (rate - 1)) / rate) ∧
  (∀ (s : State) (r : UnitRecord) (rate : Nat), s.grantRate r = some rate ↔
    rate = min (s.upRate r) (s.line.lup - s.raise.riseClaimed) ∧ 0 < rate ∧
      (s.policy.minClaim ≤ rate ∨ rate = s.upRate r)) ∧
  (∀ (s : State) (e : QueueEntry) (k rate : Nat), k < 16 → 0 < rate →
    let r := s.record e.slot
    let start := r.effCeiling.getD 0
    let amount := max 1 (min e.wanted (rate * s.policy.ticketSpan / 60))
    let target := min (start + amount) r.rating
    let t := s.grant e k rate
    let expiry := s.now + ((target - start) * 60000 + (rate - 1)) / rate * 1000 + s.policy.ticketGrace * 1000000
    t.ticket k = some
      { slot := e.slot, start := start, target := target, rate := rate, granted := s.now, expiry := expiry,
        seq := s.raise.nextSeq } ∧
    t.raise.riseClaimed = s.raise.riseClaimed + rate ∧ t.queued e.slot = false ∧
    t.raise.queue = s.raise.queue.filter (fun x => x.slot ≠ e.slot) ∧ (∀ j, j ≠ k → t.ticket j = s.ticket j) ∧
    (∀ m, m ≠ e.slot → t.record m = s.record m) ∧ t = { s with records := t.records, link := t.link, raise := t.raise } ∧
    (r.boundInverter = true → target ≤ r.rating → e.slot < 64 →
      ∃ x ∈ (t.record e.slot).staged, x.ceiling = target ∧ x.rate = rate)) ∧
  (∀ s : State, s.grantEvaluation = if s.governor = .running then
      let stands := fun e : QueueEntry => let r := s.record e.slot
        (r.binding.any fun b => (s.zone b.zone).state = .clear) && (!s.raise.effHold || r.exempt)
      match s.raise.queue.find? stands with
      | none => s
      | some e =>
        match (List.range 16).find? (fun k => (s.ticket k).isNone), s.grantRate (s.record e.slot) with
        | some k, some rate => (s.grant e k rate).grantEvaluation
        | _, _ => s
    else s) ∧
  (∀ (s : State) (n : Nat) (x : Txn) (addr : Byte) (payload : List Byte) (f : ReportFields),
    n < 64 → s.inReset = none → s.link.txn = some x → x.kind = .poll n →
    s.BegunInWindow x (payload.length + 5) → addr.toNat = n + 1 →
    parseReport payload = some f → f.long = none → f.fallback = false → f.dormant = false →
    (s.record n).state = .bound → (s.record n).kind = .inverter → s.QueueOk →
    (∀ c ∈ (s.record n).effCeiling,
      c ≤ min f.available (s.record n).rating + (s.record n).rating * s.policy.clampGap / 1000) →
    ∃ t, exec (.report addr payload) s = .next t ∧
      (s.RaiseTaken t n f ((s.record n).effCeiling.getD 0) ∨
        ∃ e ∈ (s.record n).staged, f.acknowledges e = true ∧ s.RaiseTaken t n f e.ceiling)) ∧
  (∀ (s : State) (members : List Member) (rate : Nat), s.claimRate members = some rate ↔
    rate = min (members.map (·.down)).sum (s.line.ldown - s.lower.fallClaimed) ∧
      (s.policy.minClaim ≤ rate ∨ rate = (members.map (·.down)).sum)) ∧
  (∀ (s : State) (members : List Member) (rate : Nat),
    let c := s.newClaim members rate
    let sigma := (members.map (·.down)).sum
    c.rate = rate ∧ c.granted = s.now ∧
    c.units = members.map (fun m =>
      { slot := m.slot, start := m.ceiling, target := m.target, rate := max 1 (m.down * rate / sigma),
        freed := false }) ∧
    (∀ u ∈ c.units, s.now + ((u.start - u.target) * 60 + (u.rate - 1)) / u.rate * 1000000 ≤ c.plannedEnd) ∧
    (c.units ≠ [] → ∃ u ∈ c.units, c.plannedEnd = s.now + ((u.start - u.target) * 60 + (u.rate - 1)) / u.rate * 1000000))

/-- The arrival of a FORECAST zone makes it SHADED with its arrival time fixed, and notice is given (R111); the clear
time of a SHADED zone makes it CLEAR, and notice is given (R112); nothing else changes. The Lowering Allocator takes the
notice that a zone has entered SHADED: a zone in TIMING or EMPTY requests a claim, or is DEFERRED while RECALLING, and
in every other phase nothing changes (R123, R124). It takes the notice of a return to CLEAR, a cancelled forecast like
any other: the zone is IDLE in every phase, holds no place in the wait list and no claim, and the rate of its claim
leaves fall claimed (R130). That the arrival time fixed is the deadline is the model's reading (log 27); that time is
then at least the deadline is its choice (log 2). That a zone requests also while a notice of its return to CLEAR waits
is the model's reading (log 33). -/
def Obligations.ZoneTimersMoveTheZone : Prop :=
  (∀ (s : State) (z a : Nat), z < 16 → s.inReset = none → (s.zone z).state = .forecast → (s.zone z).arrival = some a →
    s.mayPass a →
    ∃ t, exec (.arrivalExpiry z) s = .next t ∧
      t.shade = { s.shade with zones := place s.shade.zones z { s.zone z with state := .shaded, clearTime := none } } ∧
      s.Gives t (max s.now a) [.enteredShaded z]) ∧
  (∀ (s : State) (z d : Nat), z < 16 → s.inReset = none → (s.zone z).state = .shaded → (s.zone z).clearTime = some d →
    s.mayPass d →
    let new : Zone := { state := .clear, sources := [], arrival := none, clearTime := none, floor := (s.zone z).floor }
    ∃ t, exec (.clearTimeExpiry z) s = .next t ∧ t.shade = { s.shade with zones := place s.shade.zones z new } ∧
      s.Gives t (max s.now d) [.returnedClear z false]) ∧
  (∀ (s : State) (z : Nat) (rest : List Notice), z < 16 → s.lower.notices = .enteredShaded z :: rest →
    let t := s.takeLowerNotice
    ((s.phase z).code = 1 ∨ s.phase z = .empty →
      if s.governor = .running then t.requested z = true else t.phase z = .deferred) ∧
    ((s.phase z).code ≠ 1 → s.phase z ≠ .empty → t = { s with lower := { s.lower with notices := rest } }) ∧
    t.lower.notices = rest ∧ (∀ m, t.record m = { s.record m with staged := (t.record m).staged }) ∧
    t = { s with records := t.records, link := t.link, lower := t.lower }) ∧
  (∀ (s : State) (z : Nat) (b : Bool) (rest : List Notice), z < 16 → s.WaitOk → s.lower.notices = .returnedClear z b :: rest →
    let t := s.takeLowerNotice
    t.phase z = .idle ∧ z ∉ t.lower.waitList ∧
    (∀ c, s.phase z = .lowering c → s.lower.waitList = [] → t = { s with lower := { s.lower with
      phases := place s.lower.phases z .idle, fallClaimed := s.lower.fallClaimed - c.rate, notices := rest } }) ∧
    (s.phase z = .waiting → s.lower.waitList.head? ≠ some z → t = { s with lower := { s.lower with
      phases := place s.lower.phases z .idle, waitList := s.lower.waitList.erase z, notices := rest } }) ∧
    (s.phase z ≠ .waiting → (s.phase z).code ≠ 3 → t = { s with lower := { s.lower with
      phases := place s.lower.phases z .idle, notices := rest } }) ∧
    t.lower.notices = rest ∧ (∀ m, t.record m = { s.record m with staged := (t.record m).staged }) ∧
    t = { s with records := t.records, link := t.link, lower := t.lower })

/-- The start timer of a zone in TIMING makes it request: it leaves TIMING, and while RECALLING it is DEFERRED (R123).
With nothing waiting before it, it is EMPTY where its plan has no member, lowered by a claim with the values of the plan
where one can be granted, and WAITING otherwise (R126, R127). Claim evaluation takes the head of the wait list: one
whose plan has no member enters EMPTY and leaves the list, one that can be granted is granted, and the next head
follows; one that cannot be granted ends the evaluation, and while RECALLING there is none (R126). A grant stages for
each member its target at its unit rate, unless a lower ceiling is already staged, and hands over the ZONE ENVELOPE
frames of the claim, 16 slots to a frame (R60, R128); the moment their entry times share and the numbers that tell these
apart are the model's (log 13), and so are the sequence number of a claim and the number of the next one (log 28). The
planned end of a claim takes its zone to LOWERED (R129). That time is then at least the deadline is the model's choice
(log 2). That a zone requests also while a notice of its return to CLEAR waits is the model's reading (log 33). -/
def Obligations.LoweringTimersMoveTheZone : Prop :=
  (∀ (s : State) (z d : Nat), s.inReset = none → s.phase z = .timing d → s.mayPass d →
    ∃ t, exec (.startTimerExpiry z) s = .next t ∧ t.now = max s.now d ∧
      (s.governor ≠ .running → t.phase z = .deferred ∧ t.lower.waitList = s.lower.waitList) ∧
      (s.governor = .running → t.requested z = true) ∧
      (s.governor = .running → s.lower.waitList = [] → z < 16 →
        t.phase z = if s.planMembers z = [] then .empty
          else match s.claimRate (s.planMembers z) with
            | some rate => .lowering (({ s with now := max s.now d } : State).newClaim (s.planMembers z) rate)
            | none => .waiting) ∧
      t.shade = s.shade ∧ t.raise = s.raise ∧ t.line = s.line ∧ t.port = s.port ∧ t.policy = s.policy ∧
      (∀ m, t.record m = { s.record m with staged := (t.record m).staged })) ∧
  (∀ (s : State) (z : Nat) (c : Claim), s.inReset = none → s.phase z = .lowering c → s.WaitOk →
    s.mayPass c.plannedEnd →
    ∃ t, exec (.plannedEnd z) s = .next t ∧ t.now = max s.now c.plannedEnd ∧ t.phase z = .lowered ∧
      (s.lower.waitList = [] → t.lower = { s.lower with
        phases := place s.lower.phases z .lowered, fallClaimed := s.lower.fallClaimed - c.rate }) ∧
      t.shade = s.shade ∧ t.raise = s.raise ∧ t.line = s.line ∧ t.port = s.port ∧ t.policy = s.policy ∧
      (∀ m, t.record m = { s.record m with staged := (t.record m).staged })) ∧
  (∀ s : State, s.claimEvaluation = if s.governor = .running then
      match s.lower.waitList with
      | [] => s
      | z :: rest =>
        if s.planMembers z = [] then
          ({ s with lower := { s.lower with
            phases := place s.lower.phases z .empty, waitList := rest.filter fun y => y ≠ z } } : State).claimEvaluation
        else
          match s.claimRate (s.planMembers z) with
          | some rate => (s.grantClaim z (s.planMembers z) rate).claimEvaluation
          | none => s
    else s) ∧
  (∀ (s : State) (z rate : Nat), z < 16 → 0 < rate → s.planMembers z ≠ [] →
    let c := s.newClaim (s.planMembers z) rate
    let t := s.grantClaim z (s.planMembers z) rate
    t.phase z = .lowering c ∧ (∀ y, y ≠ z → t.phase y = s.phase y) ∧
    t.lower.waitList = s.lower.waitList.filter (fun y => y ≠ z) ∧ t.lower.fallClaimed = s.lower.fallClaimed + rate ∧
    t.lower.nextSeq = s.lower.nextSeq + 1 ∧
    (∀ u ∈ c.units, let r := s.record u.slot
      t.record u.slot = if ∃ e ∈ r.staged, e.ceiling < min u.target r.rating then r
        else { r with staged := some (r.claimEnvelope u.target u.rate) }) ∧
    (∀ n, n ∉ c.units.map (·.slot) → t.record n = s.record n) ∧
    (∃ frames : List ZoneEnvTx, t.link = { s.link with zoneEnvs := s.link.zoneEnvs ++ frames } ∧
      (∀ e ∈ frames, e.zone = z ∧ e.entry = s.now ∧ 1 ≤ e.slots.length ∧ e.slots.length ≤ 16) ∧
      (∀ e ∈ frames.dropLast, e.slots.length = 16) ∧
      frames.flatMap (·.slots) = c.units.map (·.slot) ∧ (frames.map (·.order)).Pairwise (· < ·)) ∧
    t = { s with records := t.records, link := t.link, lower := t.lower })

/-- One line step (R140, R145, R147, R148, R149): PL follows S within the steps, c and c′ are worked, PL is re-based at
a shortfall, the episode and its counter follow, a COVER with its new share is pending to each usable converter that
moves by the deadband or comes to 0 kW, and the timer starts again. That time is then at least the deadline is the
model's choice (log 2). -/
def Obligations.LineStepFollowsTheArray : Prop :=
  ∀ (s : State) (d : Nat), s.inReset = none → s.line.timer = some d → s.mayPass d →
    let now := max s.now d
    let sum : Int := s.arraySum
    let up : Int := max 1 (s.line.lup * s.policy.lineStep / 60000 : Nat)
    let down : Int := max 1 (s.line.ldown * s.policy.lineStep / 60000 : Nat)
    let pl : Int := match s.line.pl with
      | none => sum
      | some p => min (max sum (p - down)) (p + up)
    let c := pl - sum
    let given := ((s.clippedShares c).map (·.2)).sum
    ∃ t, exec .lineStep s = .next t ∧ t.now = now ∧ t.line.cover = c ∧ t.line.given = given ∧
      t.line.pl = some (if given = c then pl else sum + given) ∧
      t.line.timer = some (now + s.policy.lineStep * 1000) ∧
      t.line.episode = (if given < c then match s.line.episode with
          | .fall x => .fall x
          | _ => .fall now
        else if c < given then match s.line.episode with
          | .rise x => .rise x
          | _ => .rise now
        else .none) ∧
      t.line.fallBreaches = (if given < c then match s.line.episode with
          | .fall _ => s.line.fallBreaches
          | _ => min (s.line.fallBreaches + 1) 65535
        else s.line.fallBreaches) ∧
      t.line.riseBreaches = (if c < given then match s.line.episode with
          | .rise _ => s.line.riseBreaches
          | _ => min (s.line.riseBreaches + 1) 65535
        else s.line.riseBreaches) ∧
      t.port.causes = (if t.line.episode = .none ∨ t.line.episode = s.line.episode then s.port.causes
        else s.port.causes ||| 0x100#12) ∧
      (∀ y ∈ s.clippedShares c,
        let old := match (s.tx y.1).cover with
          | some z => z.share
          | none => (s.lastShare y.1).getD 0
        let moves : Prop := ((s.policy.deadband : Int) ≤ y.2 - old ∨ (s.policy.deadband : Int) ≤ old - y.2) ∧ y.2 ≠ old
        (t.tx y.1).cover = if moves ∨ (y.2 = 0 ∧ old ≠ 0) then
            some { share := y.2, entry := match (s.tx y.1).cover with | some z => z.entry | none => now }
          else (s.tx y.1).cover) ∧
      (∀ n, n ∉ s.usableSlots → (t.tx n).cover = (s.tx n).cover) ∧
      t.records = s.records ∧ t.line.condition = s.line.condition ∧ t.line.lup = s.line.lup ∧
      t.line.ldown = s.line.ldown ∧ t.line.parts = s.line.parts ∧ t.line.lastShare = s.line.lastShare ∧
      t = { s with now := t.now, link := t.link, line := t.line, port := t.port }

/-- The cover split (R143): the shares go to the usable converters in slot order; each is c in proportion to its weight,
its magnitude rounded down, but for the lowest-numbered, which takes the remainder, so that they add up to c; all are 0
where c or the sum of the weights is 0. Each share is then clipped to the counted limits of its converter (R144). -/
def Obligations.CoverSplitAddsUp : Prop :=
  ∀ (s : State) (c : Int),
    let weight := fun n => if 0 < c then (s.record n).countedDischarge s.policy.reserve
      else if c < 0 then (s.record n).countedChargeLimit else 0
    let sum := (s.usableSlots.map weight).sum
    (s.splitCover c).map (·.1) = s.usableSlots ∧
    (c ≠ 0 → sum ≠ 0 → ((s.splitCover c).map (·.2)).sum = c ∧
      ∀ x ∈ (s.splitCover c).tail,
        x.2 = if 0 < c then ((c.toNat * weight x.1 / sum : Nat) : Int) else -(((-c).toNat * weight x.1 / sum : Nat) : Int)) ∧
    ((c = 0 ∨ sum = 0) → ∀ x ∈ s.splitCover c, x.2 = 0) ∧
    s.clippedShares c = (s.splitCover c).map fun x =>
      (x.1, max (min x.2 ((s.record x.1).countedDischarge s.policy.reserve : Int))
        (-((s.record x.1).countedChargeLimit : Int)))

/-- The recall window expires (R167): records still RECALLED become VACANT, the governor is RUNNING, RECALL DONE is
raised. The DEFERRED zones are taken up (R133): a SHADED one requests, a FORECAST one works its start time and requests
where it is past or early lowering calls for it. That time is then at least the deadline is the model's choice (log 2).
A start time equal to now is not past (the model's choice, log 18). -/
def Obligations.RecallWindowEnds : Prop :=
  ∀ (s : State) (w : Nat), s.inReset = none → s.governor = .recalling w → s.raise.queue = [] → s.mayPass w →
    ∃ t, exec .recallWindowExpiry s = .next t ∧ t.now = max s.now w ∧ t.governor = .running ∧
      (∀ n < 64, (s.record n).state = .recalled → t.record n = .vacant ∧ t.part n = none) ∧
      (∀ n < 64, (s.record n).state ≠ .recalled →
        t.record n = { s.record n with staged := (t.record n).staged } ∧ t.part n = s.part n) ∧
      t.port.causes &&& 0x080#12 = 0x080#12 ∧ t.raise.queue = [] ∧ t.shade = s.shade ∧ t.policy = s.policy ∧
      t.profiles = s.profiles ∧
      (s.WaitOk → ∀ z < 16, s.phase z = .deferred →
        ((s.zone z).state = .shaded → t.requested z = true) ∧
        ((s.zone z).state = .forecast → ∀ a, (s.zone z).arrival = some a →
          s.Starts t (max s.now w) z a s.lowersEarly))

/-! ### Invariants kept by every step -/

/-- Rise claimed stays the sum of the rates of the live tickets, within Lup (R79); the sequence numbers of the model
tell them apart (log 28). -/
def Obligations.RiseClaimedStaysWithinLup : Prop :=
  ∀ s t : State, s.RiseOk → step s = .next t → t.RiseOk

/-- Fall claimed stays the sum of the rates of the granted claims, within Ldown; a zone stands in the wait list exactly
while it is WAITING, and is IDLE exactly while it is CLEAR as soon as the notices that wait for the Lowering Allocator
have been taken, each of one of the sixteen zones (R104, R113, R114, R119, R125, R127). The sequence numbers of the
model tell the claims apart (log 28). -/
def Obligations.FallClaimedStaysWithinLdown : Prop :=
  ∀ s t : State, s.MapOk ∧ s.WaitOk ∧ s.FallOk ∧ s.IdleOk ∧ s.NoticesOk → step s = .next t →
    t.MapOk ∧ t.WaitOk ∧ t.FallOk ∧ t.IdleOk ∧ t.NoticesOk

/-- The tickets and the entries of the raise queue stay with BOUND inverters, one to a slot (R73, R78). -/
def Obligations.TicketsAndEntriesStayWithBoundInverters : Prop :=
  ∀ s t : State, s.QueueOk → step s = .next t → t.QueueOk

/-- Serials stay distinct and kinds follow the slots (R2, R39). -/
def Obligations.SerialsAndKindsStay : Prop :=
  ∀ s t : State, s.SerialsOk ∧ s.KindsOk → step s = .next t → t.SerialsOk ∧ t.KindsOk

/-- The envelopes of the records stay as R57 has them: banks, ceilings within the rating, rates of 1 to 4000 kW/min. -/
def Obligations.EnvelopesStay : Prop :=
  ∀ s t : State, s.EnvelopesOk → step s = .next t → t.EnvelopesOk

/-- Zones hold what their states have them hold, one source to a sensor and cleared marks only while SHADED; debounce
timers run exactly while a line differs from its filtered level, and the sensor map keeps its form (R102, R104, R107,
R109, R110). -/
def Obligations.ShadeTrackerStays : Prop :=
  ∀ s t : State, s.ZonesOk ∧ s.SensorsOk ∧ s.MapOk → step s = .next t → t.ZonesOk ∧ t.SensorsOk ∧ t.MapOk

/-- The cover condition is always the one R150 gives, ATTN the level R183 gives, and effective hold as R94 gives it. -/
def Obligations.DerivedLevelsStay : Prop :=
  ∀ s t : State, s.CoverOk ∧ s.AttnOk ∧ s.HoldOk → step s = .next t → t.CoverOk ∧ t.AttnOk ∧ t.HoldOk

/-- Every setting stays in its range (R54, R115, R152, R187). -/
def Obligations.SettingsStayInRange : Prop :=
  ∀ s t : State, s.SettingsOk → step s = .next t → t.SettingsOk

/-- One routine POLL is pending, to the lowest-numbered due slot that is not served, a DORMANT record being due in sweep
0 only, and the JOIN WINDOW exactly while no due slot is unserved and it is not being held (R33, R34, R35). -/
def Obligations.SweepKeepsItsPoll : Prop :=
  ∀ s t : State, s.SweepOk → step s = .next t → t.SweepOk

/-- A locked value changes only by a power-on reset (R170, R189); time never goes back (the model's, log 1 and log 2);
no transaction begins while one is in progress (R29). -/
def Obligations.LockTimeAndTransactionsStand : Prop :=
  ∀ (c : Instr) (s t : State), exec c s = .next t →
    (s.port.lock = true → c ≠ .powerOnReset → s.inReset ≠ some .powerOn →
      t.port.lock = true ∧ t.line.lup = s.line.lup ∧ t.line.ldown = s.line.ldown ∧ t.profiles = s.profiles ∧
      t.policy.clampGap = s.policy.clampGap ∧ t.policy.clampMargin = s.policy.clampMargin) ∧
    s.now ≤ t.now ∧
    (∀ x, s.link.txn = some x → t.link.txn = some x ∨ t.link.txn = none)

/-- The state after a power-on reset has every invariant, and the reset values the manual gives (R27, R33, R54, R79,
R100, R118, R136, R152, R158, R170, R172, R181 to R183), with the default of every setting. The levels of the input pins
are the model's choice (log 12), and so are the widths of the reset report that no list gives (log 9). -/
def Obligations.ResetStateIsAsTheManualGives : Prop :=
  State.reset.RiseOk ∧ State.reset.QueueOk ∧ State.reset.MapOk ∧ State.reset.WaitOk ∧ State.reset.FallOk ∧
  State.reset.IdleOk ∧ State.reset.NoticesOk ∧ State.reset.SerialsOk ∧ State.reset.KindsOk ∧ State.reset.EnvelopesOk ∧ State.reset.ZonesOk ∧
  State.reset.SensorsOk ∧ State.reset.CoverOk ∧ State.reset.AttnOk ∧ State.reset.HoldOk ∧ State.reset.SettingsOk ∧
  State.reset.SweepOk ∧
  State.reset.StartedUp State.reset .powerOn ∧ State.reset.LockedValues State.reset false ∧
  State.reset.records = Vector.replicate 64 UnitRecord.vacant ∧ State.reset.governor = .recalling 30000000 ∧
  State.reset.line.lup = 2000 ∧ State.reset.line.ldown = 2000 ∧ State.reset.line.pl = none ∧
  State.reset.port.lock = false ∧ State.reset.port.mask = 0xFFF#12 ∧ State.reset.port.causes = 0 ∧
  State.reset.arbiterChoice = some .recall ∧
  State.reset.policy =
    { nr := 2, leaseInterval := 3000, bindTimeout := 60, releaseTimeout := 2000, lapsesThr := 5, slowThr := 8, ackThr := 16
      ta := 1000, raiseThr := 20, ticketSpan := 60, ticketGrace := 3, minClaim := 20, debounce := 500, startMargin := 5
      early := true, lineStep := 200, deadband := 50, caution := 200, reserve := 50, recallWindow := 30, clampGap := 150
      clampMargin := 50 } ∧
  State.reset.profiles.toList.map (fun x => (x.up, x.down)) = [(8, 8), (5, 10), (10, 11), (0, 8)] ∧
  (∀ z < 16, State.reset.zone z = { state := .clear, sources := [], arrival := none, clearTime := none, floor := 300 } ∧
    State.reset.phase z = .idle) ∧
  (∀ i < 16, look State.reset.shade.map i [] = [] ∧ (State.reset.sensor i).filtered = false ∧
    (State.reset.sensor i).timer = none) ∧
  State.reset.lower.waitList = [] ∧ State.reset.lower.fallClaimed = 0 ∧ State.reset.raise.queue = [] ∧
  (∀ k < 16, State.reset.ticket k = none) ∧ State.reset.raise.riseClaimed = 0 ∧ State.reset.raise.holdFlag = false ∧
  State.reset.raise.notices = [] ∧ State.reset.lower.notices = [] ∧
  (∀ n < 64, State.reset.part n = none ∧ State.reset.lastShare n = none ∧ State.reset.tx n = .empty) ∧
  State.reset.line.cover = 0 ∧ State.reset.line.given = 0 ∧ State.reset.line.condition = .none ∧
  State.reset.line.episode = .none ∧ State.reset.line.fallBreaches = 0 ∧ State.reset.line.riseBreaches = 0 ∧
  State.reset.line.timer = some 200000 ∧ State.reset.link.sweep = 0 ∧ State.reset.link.txn = none ∧
  Policy.default = State.reset.policy ∧ defaultProfiles = State.reset.profiles ∧ Zone.initial = State.reset.zone 0 ∧
  Lower.initial = State.reset.lower ∧ RaiseAlloc.cleared false = State.reset.raise ∧
  LineCtl.cleared 2000 2000 (some 200000) = State.reset.line

end
end

