-- ==== Sys2Proof/Laws/State.lean ====
section
/-! SUPPORT. One lemma for each field and each update: what an update leaves as it was, true by definition. -/

namespace Sys2Proof.Machine.State

/-! `setRecord` -/

@[simp] theorem setRecord_pending (s : State) (n : Nat) (r : UnitRecord) : (s.setRecord n r).pending = s.pending := rfl
@[simp] theorem setRecord_now (s : State) (n : Nat) (r : UnitRecord) : (s.setRecord n r).now = s.now := rfl
@[simp] theorem setRecord_choices (s : State) (n : Nat) (r : UnitRecord) : (s.setRecord n r).choices = s.choices := rfl
@[simp] theorem setRecord_inReset (s : State) (n : Nat) (r : UnitRecord) : (s.setRecord n r).inReset = s.inReset := rfl
@[simp] theorem setRecord_lastReset (s : State) (n : Nat) (r : UnitRecord) : (s.setRecord n r).lastReset = s.lastReset := rfl
@[simp] theorem setRecord_resetAt (s : State) (n : Nat) (r : UnitRecord) : (s.setRecord n r).resetAt = s.resetAt := rfl
@[simp] theorem setRecord_policy (s : State) (n : Nat) (r : UnitRecord) : (s.setRecord n r).policy = s.policy := rfl
@[simp] theorem setRecord_governor (s : State) (n : Nat) (r : UnitRecord) : (s.setRecord n r).governor = s.governor := rfl
@[simp] theorem setRecord_profiles (s : State) (n : Nat) (r : UnitRecord) : (s.setRecord n r).profiles = s.profiles := rfl
@[simp] theorem setRecord_link (s : State) (n : Nat) (r : UnitRecord) : (s.setRecord n r).link = s.link := rfl
@[simp] theorem setRecord_raise (s : State) (n : Nat) (r : UnitRecord) : (s.setRecord n r).raise = s.raise := rfl
@[simp] theorem setRecord_shade (s : State) (n : Nat) (r : UnitRecord) : (s.setRecord n r).shade = s.shade := rfl
@[simp] theorem setRecord_lower (s : State) (n : Nat) (r : UnitRecord) : (s.setRecord n r).lower = s.lower := rfl
@[simp] theorem setRecord_line (s : State) (n : Nat) (r : UnitRecord) : (s.setRecord n r).line = s.line := rfl
@[simp] theorem setRecord_port (s : State) (n : Nat) (r : UnitRecord) : (s.setRecord n r).port = s.port := rfl
@[simp] theorem setRecord_tx (s : State) (n : Nat) (r : UnitRecord) (m : Nat) : (s.setRecord n r).tx m = s.tx m := rfl
@[simp] theorem setRecord_zone (s : State) (n : Nat) (r : UnitRecord) (y : Nat) : (s.setRecord n r).zone y = s.zone y := rfl
@[simp] theorem setRecord_sensor (s : State) (n : Nat) (r : UnitRecord) (j : Nat) : (s.setRecord n r).sensor j = s.sensor j := rfl
@[simp] theorem setRecord_phase (s : State) (n : Nat) (r : UnitRecord) (y : Nat) : (s.setRecord n r).phase y = s.phase y := rfl
@[simp] theorem setRecord_ticket (s : State) (n : Nat) (r : UnitRecord) (j : Nat) : (s.setRecord n r).ticket j = s.ticket j := rfl
@[simp] theorem setRecord_part (s : State) (n : Nat) (r : UnitRecord) (m : Nat) : (s.setRecord n r).part m = s.part m := rfl
@[simp] theorem setRecord_lastShare (s : State) (n : Nat) (r : UnitRecord) (m : Nat) : (s.setRecord n r).lastShare m = s.lastShare m := rfl
@[simp] theorem setRecord_profile (s : State) (n : Nat) (r : UnitRecord) (q : Nat) : (s.setRecord n r).profile q = s.profile q := rfl
@[simp] theorem setRecord_isRunning (s : State) (n : Nat) (r : UnitRecord) : (s.setRecord n r).isRunning = s.isRunning := rfl

/-! `setTx` -/

@[simp] theorem setTx_pending (s : State) (n : Nat) (t : SlotTx) : (s.setTx n t).pending = s.pending := rfl
@[simp] theorem setTx_now (s : State) (n : Nat) (t : SlotTx) : (s.setTx n t).now = s.now := rfl
@[simp] theorem setTx_choices (s : State) (n : Nat) (t : SlotTx) : (s.setTx n t).choices = s.choices := rfl
@[simp] theorem setTx_inReset (s : State) (n : Nat) (t : SlotTx) : (s.setTx n t).inReset = s.inReset := rfl
@[simp] theorem setTx_lastReset (s : State) (n : Nat) (t : SlotTx) : (s.setTx n t).lastReset = s.lastReset := rfl
@[simp] theorem setTx_resetAt (s : State) (n : Nat) (t : SlotTx) : (s.setTx n t).resetAt = s.resetAt := rfl
@[simp] theorem setTx_policy (s : State) (n : Nat) (t : SlotTx) : (s.setTx n t).policy = s.policy := rfl
@[simp] theorem setTx_records (s : State) (n : Nat) (t : SlotTx) : (s.setTx n t).records = s.records := rfl
@[simp] theorem setTx_governor (s : State) (n : Nat) (t : SlotTx) : (s.setTx n t).governor = s.governor := rfl
@[simp] theorem setTx_profiles (s : State) (n : Nat) (t : SlotTx) : (s.setTx n t).profiles = s.profiles := rfl
@[simp] theorem setTx_link_sweep (s : State) (n : Nat) (t : SlotTx) : (s.setTx n t).link.sweep = s.link.sweep := rfl
@[simp] theorem setTx_link_served (s : State) (n : Nat) (t : SlotTx) : (s.setTx n t).link.served = s.link.served := rfl
@[simp] theorem setTx_link_txn (s : State) (n : Nat) (t : SlotTx) : (s.setTx n t).link.txn = s.link.txn := rfl
@[simp] theorem setTx_link_refuse (s : State) (n : Nat) (t : SlotTx) : (s.setTx n t).link.refuse = s.link.refuse := rfl
@[simp] theorem setTx_link_recallTx (s : State) (n : Nat) (t : SlotTx) : (s.setTx n t).link.recallTx = s.link.recallTx := rfl
@[simp] theorem setTx_link_joinWindow (s : State) (n : Nat) (t : SlotTx) : (s.setTx n t).link.joinWindow = s.link.joinWindow := rfl
@[simp] theorem setTx_link_zoneEnvs (s : State) (n : Nat) (t : SlotTx) : (s.setTx n t).link.zoneEnvs = s.link.zoneEnvs := rfl
@[simp] theorem setTx_raise (s : State) (n : Nat) (t : SlotTx) : (s.setTx n t).raise = s.raise := rfl
@[simp] theorem setTx_shade (s : State) (n : Nat) (t : SlotTx) : (s.setTx n t).shade = s.shade := rfl
@[simp] theorem setTx_lower (s : State) (n : Nat) (t : SlotTx) : (s.setTx n t).lower = s.lower := rfl
@[simp] theorem setTx_line (s : State) (n : Nat) (t : SlotTx) : (s.setTx n t).line = s.line := rfl
@[simp] theorem setTx_port (s : State) (n : Nat) (t : SlotTx) : (s.setTx n t).port = s.port := rfl
@[simp] theorem setTx_record (s : State) (n : Nat) (t : SlotTx) (m : Nat) : (s.setTx n t).record m = s.record m := rfl
@[simp] theorem setTx_zone (s : State) (n : Nat) (t : SlotTx) (y : Nat) : (s.setTx n t).zone y = s.zone y := rfl
@[simp] theorem setTx_sensor (s : State) (n : Nat) (t : SlotTx) (j : Nat) : (s.setTx n t).sensor j = s.sensor j := rfl
@[simp] theorem setTx_phase (s : State) (n : Nat) (t : SlotTx) (y : Nat) : (s.setTx n t).phase y = s.phase y := rfl
@[simp] theorem setTx_ticket (s : State) (n : Nat) (t : SlotTx) (j : Nat) : (s.setTx n t).ticket j = s.ticket j := rfl
@[simp] theorem setTx_part (s : State) (n : Nat) (t : SlotTx) (m : Nat) : (s.setTx n t).part m = s.part m := rfl
@[simp] theorem setTx_lastShare (s : State) (n : Nat) (t : SlotTx) (m : Nat) : (s.setTx n t).lastShare m = s.lastShare m := rfl
@[simp] theorem setTx_profile (s : State) (n : Nat) (t : SlotTx) (q : Nat) : (s.setTx n t).profile q = s.profile q := rfl
@[simp] theorem setTx_isRunning (s : State) (n : Nat) (t : SlotTx) : (s.setTx n t).isRunning = s.isRunning := rfl

/-! `setZone` -/

@[simp] theorem setZone_pending (s : State) (z : Nat) (x : Zone) : (s.setZone z x).pending = s.pending := rfl
@[simp] theorem setZone_now (s : State) (z : Nat) (x : Zone) : (s.setZone z x).now = s.now := rfl
@[simp] theorem setZone_choices (s : State) (z : Nat) (x : Zone) : (s.setZone z x).choices = s.choices := rfl
@[simp] theorem setZone_inReset (s : State) (z : Nat) (x : Zone) : (s.setZone z x).inReset = s.inReset := rfl
@[simp] theorem setZone_lastReset (s : State) (z : Nat) (x : Zone) : (s.setZone z x).lastReset = s.lastReset := rfl
@[simp] theorem setZone_resetAt (s : State) (z : Nat) (x : Zone) : (s.setZone z x).resetAt = s.resetAt := rfl
@[simp] theorem setZone_policy (s : State) (z : Nat) (x : Zone) : (s.setZone z x).policy = s.policy := rfl
@[simp] theorem setZone_records (s : State) (z : Nat) (x : Zone) : (s.setZone z x).records = s.records := rfl
@[simp] theorem setZone_governor (s : State) (z : Nat) (x : Zone) : (s.setZone z x).governor = s.governor := rfl
@[simp] theorem setZone_profiles (s : State) (z : Nat) (x : Zone) : (s.setZone z x).profiles = s.profiles := rfl
@[simp] theorem setZone_link (s : State) (z : Nat) (x : Zone) : (s.setZone z x).link = s.link := rfl
@[simp] theorem setZone_raise (s : State) (z : Nat) (x : Zone) : (s.setZone z x).raise = s.raise := rfl
@[simp] theorem setZone_shade_sensors (s : State) (z : Nat) (x : Zone) : (s.setZone z x).shade.sensors = s.shade.sensors := rfl
@[simp] theorem setZone_shade_map (s : State) (z : Nat) (x : Zone) : (s.setZone z x).shade.map = s.shade.map := rfl
@[simp] theorem setZone_lower (s : State) (z : Nat) (x : Zone) : (s.setZone z x).lower = s.lower := rfl
@[simp] theorem setZone_line (s : State) (z : Nat) (x : Zone) : (s.setZone z x).line = s.line := rfl
@[simp] theorem setZone_port (s : State) (z : Nat) (x : Zone) : (s.setZone z x).port = s.port := rfl
@[simp] theorem setZone_record (s : State) (z : Nat) (x : Zone) (m : Nat) : (s.setZone z x).record m = s.record m := rfl
@[simp] theorem setZone_tx (s : State) (z : Nat) (x : Zone) (m : Nat) : (s.setZone z x).tx m = s.tx m := rfl
@[simp] theorem setZone_sensor (s : State) (z : Nat) (x : Zone) (j : Nat) : (s.setZone z x).sensor j = s.sensor j := rfl
@[simp] theorem setZone_phase (s : State) (z : Nat) (x : Zone) (y : Nat) : (s.setZone z x).phase y = s.phase y := rfl
@[simp] theorem setZone_ticket (s : State) (z : Nat) (x : Zone) (j : Nat) : (s.setZone z x).ticket j = s.ticket j := rfl
@[simp] theorem setZone_part (s : State) (z : Nat) (x : Zone) (m : Nat) : (s.setZone z x).part m = s.part m := rfl
@[simp] theorem setZone_lastShare (s : State) (z : Nat) (x : Zone) (m : Nat) : (s.setZone z x).lastShare m = s.lastShare m := rfl
@[simp] theorem setZone_profile (s : State) (z : Nat) (x : Zone) (q : Nat) : (s.setZone z x).profile q = s.profile q := rfl
@[simp] theorem setZone_isRunning (s : State) (z : Nat) (x : Zone) : (s.setZone z x).isRunning = s.isRunning := rfl

/-! `setSensor` -/

@[simp] theorem setSensor_pending (s : State) (i : Nat) (x : Sensor) : (s.setSensor i x).pending = s.pending := rfl
@[simp] theorem setSensor_now (s : State) (i : Nat) (x : Sensor) : (s.setSensor i x).now = s.now := rfl
@[simp] theorem setSensor_choices (s : State) (i : Nat) (x : Sensor) : (s.setSensor i x).choices = s.choices := rfl
@[simp] theorem setSensor_inReset (s : State) (i : Nat) (x : Sensor) : (s.setSensor i x).inReset = s.inReset := rfl
@[simp] theorem setSensor_lastReset (s : State) (i : Nat) (x : Sensor) : (s.setSensor i x).lastReset = s.lastReset := rfl
@[simp] theorem setSensor_resetAt (s : State) (i : Nat) (x : Sensor) : (s.setSensor i x).resetAt = s.resetAt := rfl
@[simp] theorem setSensor_policy (s : State) (i : Nat) (x : Sensor) : (s.setSensor i x).policy = s.policy := rfl
@[simp] theorem setSensor_records (s : State) (i : Nat) (x : Sensor) : (s.setSensor i x).records = s.records := rfl
@[simp] theorem setSensor_governor (s : State) (i : Nat) (x : Sensor) : (s.setSensor i x).governor = s.governor := rfl
@[simp] theorem setSensor_profiles (s : State) (i : Nat) (x : Sensor) : (s.setSensor i x).profiles = s.profiles := rfl
@[simp] theorem setSensor_link (s : State) (i : Nat) (x : Sensor) : (s.setSensor i x).link = s.link := rfl
@[simp] theorem setSensor_raise (s : State) (i : Nat) (x : Sensor) : (s.setSensor i x).raise = s.raise := rfl
@[simp] theorem setSensor_shade_map (s : State) (i : Nat) (x : Sensor) : (s.setSensor i x).shade.map = s.shade.map := rfl
@[simp] theorem setSensor_shade_zones (s : State) (i : Nat) (x : Sensor) : (s.setSensor i x).shade.zones = s.shade.zones := rfl
@[simp] theorem setSensor_lower (s : State) (i : Nat) (x : Sensor) : (s.setSensor i x).lower = s.lower := rfl
@[simp] theorem setSensor_line (s : State) (i : Nat) (x : Sensor) : (s.setSensor i x).line = s.line := rfl
@[simp] theorem setSensor_port (s : State) (i : Nat) (x : Sensor) : (s.setSensor i x).port = s.port := rfl
@[simp] theorem setSensor_record (s : State) (i : Nat) (x : Sensor) (m : Nat) : (s.setSensor i x).record m = s.record m := rfl
@[simp] theorem setSensor_tx (s : State) (i : Nat) (x : Sensor) (m : Nat) : (s.setSensor i x).tx m = s.tx m := rfl
@[simp] theorem setSensor_zone (s : State) (i : Nat) (x : Sensor) (y : Nat) : (s.setSensor i x).zone y = s.zone y := rfl
@[simp] theorem setSensor_phase (s : State) (i : Nat) (x : Sensor) (y : Nat) : (s.setSensor i x).phase y = s.phase y := rfl
@[simp] theorem setSensor_ticket (s : State) (i : Nat) (x : Sensor) (j : Nat) : (s.setSensor i x).ticket j = s.ticket j := rfl
@[simp] theorem setSensor_part (s : State) (i : Nat) (x : Sensor) (m : Nat) : (s.setSensor i x).part m = s.part m := rfl
@[simp] theorem setSensor_lastShare (s : State) (i : Nat) (x : Sensor) (m : Nat) : (s.setSensor i x).lastShare m = s.lastShare m := rfl
@[simp] theorem setSensor_profile (s : State) (i : Nat) (x : Sensor) (q : Nat) : (s.setSensor i x).profile q = s.profile q := rfl
@[simp] theorem setSensor_isRunning (s : State) (i : Nat) (x : Sensor) : (s.setSensor i x).isRunning = s.isRunning := rfl

/-! `setPhase` -/

@[simp] theorem setPhase_pending (s : State) (z : Nat) (p : Phase) : (s.setPhase z p).pending = s.pending := rfl
@[simp] theorem setPhase_now (s : State) (z : Nat) (p : Phase) : (s.setPhase z p).now = s.now := rfl
@[simp] theorem setPhase_choices (s : State) (z : Nat) (p : Phase) : (s.setPhase z p).choices = s.choices := rfl
@[simp] theorem setPhase_inReset (s : State) (z : Nat) (p : Phase) : (s.setPhase z p).inReset = s.inReset := rfl
@[simp] theorem setPhase_lastReset (s : State) (z : Nat) (p : Phase) : (s.setPhase z p).lastReset = s.lastReset := rfl
@[simp] theorem setPhase_resetAt (s : State) (z : Nat) (p : Phase) : (s.setPhase z p).resetAt = s.resetAt := rfl
@[simp] theorem setPhase_policy (s : State) (z : Nat) (p : Phase) : (s.setPhase z p).policy = s.policy := rfl
@[simp] theorem setPhase_records (s : State) (z : Nat) (p : Phase) : (s.setPhase z p).records = s.records := rfl
@[simp] theorem setPhase_governor (s : State) (z : Nat) (p : Phase) : (s.setPhase z p).governor = s.governor := rfl
@[simp] theorem setPhase_profiles (s : State) (z : Nat) (p : Phase) : (s.setPhase z p).profiles = s.profiles := rfl
@[simp] theorem setPhase_link (s : State) (z : Nat) (p : Phase) : (s.setPhase z p).link = s.link := rfl
@[simp] theorem setPhase_raise (s : State) (z : Nat) (p : Phase) : (s.setPhase z p).raise = s.raise := rfl
@[simp] theorem setPhase_shade (s : State) (z : Nat) (p : Phase) : (s.setPhase z p).shade = s.shade := rfl
@[simp] theorem setPhase_lower_waitList (s : State) (z : Nat) (p : Phase) : (s.setPhase z p).lower.waitList = s.lower.waitList := rfl
@[simp] theorem setPhase_lower_fallClaimed (s : State) (z : Nat) (p : Phase) : (s.setPhase z p).lower.fallClaimed = s.lower.fallClaimed := rfl
@[simp] theorem setPhase_lower_nextSeq (s : State) (z : Nat) (p : Phase) : (s.setPhase z p).lower.nextSeq = s.lower.nextSeq := rfl
@[simp] theorem setPhase_lower_notices (s : State) (z : Nat) (p : Phase) : (s.setPhase z p).lower.notices = s.lower.notices := rfl
@[simp] theorem setPhase_line (s : State) (z : Nat) (p : Phase) : (s.setPhase z p).line = s.line := rfl
@[simp] theorem setPhase_port (s : State) (z : Nat) (p : Phase) : (s.setPhase z p).port = s.port := rfl
@[simp] theorem setPhase_record (s : State) (z : Nat) (p : Phase) (m : Nat) : (s.setPhase z p).record m = s.record m := rfl
@[simp] theorem setPhase_tx (s : State) (z : Nat) (p : Phase) (m : Nat) : (s.setPhase z p).tx m = s.tx m := rfl
@[simp] theorem setPhase_zone (s : State) (z : Nat) (p : Phase) (y : Nat) : (s.setPhase z p).zone y = s.zone y := rfl
@[simp] theorem setPhase_sensor (s : State) (z : Nat) (p : Phase) (j : Nat) : (s.setPhase z p).sensor j = s.sensor j := rfl
@[simp] theorem setPhase_ticket (s : State) (z : Nat) (p : Phase) (j : Nat) : (s.setPhase z p).ticket j = s.ticket j := rfl
@[simp] theorem setPhase_part (s : State) (z : Nat) (p : Phase) (m : Nat) : (s.setPhase z p).part m = s.part m := rfl
@[simp] theorem setPhase_lastShare (s : State) (z : Nat) (p : Phase) (m : Nat) : (s.setPhase z p).lastShare m = s.lastShare m := rfl
@[simp] theorem setPhase_profile (s : State) (z : Nat) (p : Phase) (q : Nat) : (s.setPhase z p).profile q = s.profile q := rfl
@[simp] theorem setPhase_isRunning (s : State) (z : Nat) (p : Phase) : (s.setPhase z p).isRunning = s.isRunning := rfl

/-! `setTicket` -/

@[simp] theorem setTicket_pending (s : State) (k : Nat) (t : Option Ticket) : (s.setTicket k t).pending = s.pending := rfl
@[simp] theorem setTicket_now (s : State) (k : Nat) (t : Option Ticket) : (s.setTicket k t).now = s.now := rfl
@[simp] theorem setTicket_choices (s : State) (k : Nat) (t : Option Ticket) : (s.setTicket k t).choices = s.choices := rfl
@[simp] theorem setTicket_inReset (s : State) (k : Nat) (t : Option Ticket) : (s.setTicket k t).inReset = s.inReset := rfl
@[simp] theorem setTicket_lastReset (s : State) (k : Nat) (t : Option Ticket) : (s.setTicket k t).lastReset = s.lastReset := rfl
@[simp] theorem setTicket_resetAt (s : State) (k : Nat) (t : Option Ticket) : (s.setTicket k t).resetAt = s.resetAt := rfl
@[simp] theorem setTicket_policy (s : State) (k : Nat) (t : Option Ticket) : (s.setTicket k t).policy = s.policy := rfl
@[simp] theorem setTicket_records (s : State) (k : Nat) (t : Option Ticket) : (s.setTicket k t).records = s.records := rfl
@[simp] theorem setTicket_governor (s : State) (k : Nat) (t : Option Ticket) : (s.setTicket k t).governor = s.governor := rfl
@[simp] theorem setTicket_profiles (s : State) (k : Nat) (t : Option Ticket) : (s.setTicket k t).profiles = s.profiles := rfl
@[simp] theorem setTicket_link (s : State) (k : Nat) (t : Option Ticket) : (s.setTicket k t).link = s.link := rfl
@[simp] theorem setTicket_raise_queue (s : State) (k : Nat) (t : Option Ticket) : (s.setTicket k t).raise.queue = s.raise.queue := rfl
@[simp] theorem setTicket_raise_riseClaimed (s : State) (k : Nat) (t : Option Ticket) : (s.setTicket k t).raise.riseClaimed = s.raise.riseClaimed := rfl
@[simp] theorem setTicket_raise_nextSeq (s : State) (k : Nat) (t : Option Ticket) : (s.setTicket k t).raise.nextSeq = s.raise.nextSeq := rfl
@[simp] theorem setTicket_raise_holdLine (s : State) (k : Nat) (t : Option Ticket) : (s.setTicket k t).raise.holdLine = s.raise.holdLine := rfl
@[simp] theorem setTicket_raise_holdTimer (s : State) (k : Nat) (t : Option Ticket) : (s.setTicket k t).raise.holdTimer = s.raise.holdTimer := rfl
@[simp] theorem setTicket_raise_holdFiltered (s : State) (k : Nat) (t : Option Ticket) : (s.setTicket k t).raise.holdFiltered = s.raise.holdFiltered := rfl
@[simp] theorem setTicket_raise_holdFlag (s : State) (k : Nat) (t : Option Ticket) : (s.setTicket k t).raise.holdFlag = s.raise.holdFlag := rfl
@[simp] theorem setTicket_raise_effHold (s : State) (k : Nat) (t : Option Ticket) : (s.setTicket k t).raise.effHold = s.raise.effHold := rfl
@[simp] theorem setTicket_raise_notices (s : State) (k : Nat) (t : Option Ticket) : (s.setTicket k t).raise.notices = s.raise.notices := rfl
@[simp] theorem setTicket_shade (s : State) (k : Nat) (t : Option Ticket) : (s.setTicket k t).shade = s.shade := rfl
@[simp] theorem setTicket_lower (s : State) (k : Nat) (t : Option Ticket) : (s.setTicket k t).lower = s.lower := rfl
@[simp] theorem setTicket_line (s : State) (k : Nat) (t : Option Ticket) : (s.setTicket k t).line = s.line := rfl
@[simp] theorem setTicket_port (s : State) (k : Nat) (t : Option Ticket) : (s.setTicket k t).port = s.port := rfl
@[simp] theorem setTicket_record (s : State) (k : Nat) (t : Option Ticket) (m : Nat) : (s.setTicket k t).record m = s.record m := rfl
@[simp] theorem setTicket_tx (s : State) (k : Nat) (t : Option Ticket) (m : Nat) : (s.setTicket k t).tx m = s.tx m := rfl
@[simp] theorem setTicket_zone (s : State) (k : Nat) (t : Option Ticket) (y : Nat) : (s.setTicket k t).zone y = s.zone y := rfl
@[simp] theorem setTicket_sensor (s : State) (k : Nat) (t : Option Ticket) (j : Nat) : (s.setTicket k t).sensor j = s.sensor j := rfl
@[simp] theorem setTicket_phase (s : State) (k : Nat) (t : Option Ticket) (y : Nat) : (s.setTicket k t).phase y = s.phase y := rfl
@[simp] theorem setTicket_part (s : State) (k : Nat) (t : Option Ticket) (m : Nat) : (s.setTicket k t).part m = s.part m := rfl
@[simp] theorem setTicket_lastShare (s : State) (k : Nat) (t : Option Ticket) (m : Nat) : (s.setTicket k t).lastShare m = s.lastShare m := rfl
@[simp] theorem setTicket_profile (s : State) (k : Nat) (t : Option Ticket) (q : Nat) : (s.setTicket k t).profile q = s.profile q := rfl
@[simp] theorem setTicket_isRunning (s : State) (k : Nat) (t : Option Ticket) : (s.setTicket k t).isRunning = s.isRunning := rfl

/-! `setPart` -/

@[simp] theorem setPart_pending (s : State) (n : Nat) (p : Option Nat) : (s.setPart n p).pending = s.pending := rfl
@[simp] theorem setPart_now (s : State) (n : Nat) (p : Option Nat) : (s.setPart n p).now = s.now := rfl
@[simp] theorem setPart_choices (s : State) (n : Nat) (p : Option Nat) : (s.setPart n p).choices = s.choices := rfl
@[simp] theorem setPart_inReset (s : State) (n : Nat) (p : Option Nat) : (s.setPart n p).inReset = s.inReset := rfl
@[simp] theorem setPart_lastReset (s : State) (n : Nat) (p : Option Nat) : (s.setPart n p).lastReset = s.lastReset := rfl
@[simp] theorem setPart_resetAt (s : State) (n : Nat) (p : Option Nat) : (s.setPart n p).resetAt = s.resetAt := rfl
@[simp] theorem setPart_policy (s : State) (n : Nat) (p : Option Nat) : (s.setPart n p).policy = s.policy := rfl
@[simp] theorem setPart_records (s : State) (n : Nat) (p : Option Nat) : (s.setPart n p).records = s.records := rfl
@[simp] theorem setPart_governor (s : State) (n : Nat) (p : Option Nat) : (s.setPart n p).governor = s.governor := rfl
@[simp] theorem setPart_profiles (s : State) (n : Nat) (p : Option Nat) : (s.setPart n p).profiles = s.profiles := rfl
@[simp] theorem setPart_link (s : State) (n : Nat) (p : Option Nat) : (s.setPart n p).link = s.link := rfl
@[simp] theorem setPart_raise (s : State) (n : Nat) (p : Option Nat) : (s.setPart n p).raise = s.raise := rfl
@[simp] theorem setPart_shade (s : State) (n : Nat) (p : Option Nat) : (s.setPart n p).shade = s.shade := rfl
@[simp] theorem setPart_lower (s : State) (n : Nat) (p : Option Nat) : (s.setPart n p).lower = s.lower := rfl
@[simp] theorem setPart_line_lup (s : State) (n : Nat) (p : Option Nat) : (s.setPart n p).line.lup = s.line.lup := rfl
@[simp] theorem setPart_line_ldown (s : State) (n : Nat) (p : Option Nat) : (s.setPart n p).line.ldown = s.line.ldown := rfl
@[simp] theorem setPart_line_pl (s : State) (n : Nat) (p : Option Nat) : (s.setPart n p).line.pl = s.line.pl := rfl
@[simp] theorem setPart_line_timer (s : State) (n : Nat) (p : Option Nat) : (s.setPart n p).line.timer = s.line.timer := rfl
@[simp] theorem setPart_line_cover (s : State) (n : Nat) (p : Option Nat) : (s.setPart n p).line.cover = s.line.cover := rfl
@[simp] theorem setPart_line_given (s : State) (n : Nat) (p : Option Nat) : (s.setPart n p).line.given = s.line.given := rfl
@[simp] theorem setPart_line_lastShare (s : State) (n : Nat) (p : Option Nat) : (s.setPart n p).line.lastShare = s.line.lastShare := rfl
@[simp] theorem setPart_line_condition (s : State) (n : Nat) (p : Option Nat) : (s.setPart n p).line.condition = s.line.condition := rfl
@[simp] theorem setPart_line_episode (s : State) (n : Nat) (p : Option Nat) : (s.setPart n p).line.episode = s.line.episode := rfl
@[simp] theorem setPart_line_fallBreaches (s : State) (n : Nat) (p : Option Nat) : (s.setPart n p).line.fallBreaches = s.line.fallBreaches := rfl
@[simp] theorem setPart_line_riseBreaches (s : State) (n : Nat) (p : Option Nat) : (s.setPart n p).line.riseBreaches = s.line.riseBreaches := rfl
@[simp] theorem setPart_port (s : State) (n : Nat) (p : Option Nat) : (s.setPart n p).port = s.port := rfl
@[simp] theorem setPart_record (s : State) (n : Nat) (p : Option Nat) (m : Nat) : (s.setPart n p).record m = s.record m := rfl
@[simp] theorem setPart_tx (s : State) (n : Nat) (p : Option Nat) (m : Nat) : (s.setPart n p).tx m = s.tx m := rfl
@[simp] theorem setPart_zone (s : State) (n : Nat) (p : Option Nat) (y : Nat) : (s.setPart n p).zone y = s.zone y := rfl
@[simp] theorem setPart_sensor (s : State) (n : Nat) (p : Option Nat) (j : Nat) : (s.setPart n p).sensor j = s.sensor j := rfl
@[simp] theorem setPart_phase (s : State) (n : Nat) (p : Option Nat) (y : Nat) : (s.setPart n p).phase y = s.phase y := rfl
@[simp] theorem setPart_ticket (s : State) (n : Nat) (p : Option Nat) (j : Nat) : (s.setPart n p).ticket j = s.ticket j := rfl
@[simp] theorem setPart_lastShare (s : State) (n : Nat) (p : Option Nat) (m : Nat) : (s.setPart n p).lastShare m = s.lastShare m := rfl
@[simp] theorem setPart_profile (s : State) (n : Nat) (p : Option Nat) (q : Nat) : (s.setPart n p).profile q = s.profile q := rfl
@[simp] theorem setPart_isRunning (s : State) (n : Nat) (p : Option Nat) : (s.setPart n p).isRunning = s.isRunning := rfl

/-! `setLastShare` -/

@[simp] theorem setLastShare_pending (s : State) (n : Nat) (x : Option Int) : (s.setLastShare n x).pending = s.pending := rfl
@[simp] theorem setLastShare_now (s : State) (n : Nat) (x : Option Int) : (s.setLastShare n x).now = s.now := rfl
@[simp] theorem setLastShare_choices (s : State) (n : Nat) (x : Option Int) : (s.setLastShare n x).choices = s.choices := rfl
@[simp] theorem setLastShare_inReset (s : State) (n : Nat) (x : Option Int) : (s.setLastShare n x).inReset = s.inReset := rfl
@[simp] theorem setLastShare_lastReset (s : State) (n : Nat) (x : Option Int) : (s.setLastShare n x).lastReset = s.lastReset := rfl
@[simp] theorem setLastShare_resetAt (s : State) (n : Nat) (x : Option Int) : (s.setLastShare n x).resetAt = s.resetAt := rfl
@[simp] theorem setLastShare_policy (s : State) (n : Nat) (x : Option Int) : (s.setLastShare n x).policy = s.policy := rfl
@[simp] theorem setLastShare_records (s : State) (n : Nat) (x : Option Int) : (s.setLastShare n x).records = s.records := rfl
@[simp] theorem setLastShare_governor (s : State) (n : Nat) (x : Option Int) : (s.setLastShare n x).governor = s.governor := rfl
@[simp] theorem setLastShare_profiles (s : State) (n : Nat) (x : Option Int) : (s.setLastShare n x).profiles = s.profiles := rfl
@[simp] theorem setLastShare_link (s : State) (n : Nat) (x : Option Int) : (s.setLastShare n x).link = s.link := rfl
@[simp] theorem setLastShare_raise (s : State) (n : Nat) (x : Option Int) : (s.setLastShare n x).raise = s.raise := rfl
@[simp] theorem setLastShare_shade (s : State) (n : Nat) (x : Option Int) : (s.setLastShare n x).shade = s.shade := rfl
@[simp] theorem setLastShare_lower (s : State) (n : Nat) (x : Option Int) : (s.setLastShare n x).lower = s.lower := rfl
@[simp] theorem setLastShare_line_lup (s : State) (n : Nat) (x : Option Int) : (s.setLastShare n x).line.lup = s.line.lup := rfl
@[simp] theorem setLastShare_line_ldown (s : State) (n : Nat) (x : Option Int) : (s.setLastShare n x).line.ldown = s.line.ldown := rfl
@[simp] theorem setLastShare_line_parts (s : State) (n : Nat) (x : Option Int) : (s.setLastShare n x).line.parts = s.line.parts := rfl
@[simp] theorem setLastShare_line_pl (s : State) (n : Nat) (x : Option Int) : (s.setLastShare n x).line.pl = s.line.pl := rfl
@[simp] theorem setLastShare_line_timer (s : State) (n : Nat) (x : Option Int) : (s.setLastShare n x).line.timer = s.line.timer := rfl
@[simp] theorem setLastShare_line_cover (s : State) (n : Nat) (x : Option Int) : (s.setLastShare n x).line.cover = s.line.cover := rfl
@[simp] theorem setLastShare_line_given (s : State) (n : Nat) (x : Option Int) : (s.setLastShare n x).line.given = s.line.given := rfl
@[simp] theorem setLastShare_line_condition (s : State) (n : Nat) (x : Option Int) : (s.setLastShare n x).line.condition = s.line.condition := rfl
@[simp] theorem setLastShare_line_episode (s : State) (n : Nat) (x : Option Int) : (s.setLastShare n x).line.episode = s.line.episode := rfl
@[simp] theorem setLastShare_line_fallBreaches (s : State) (n : Nat) (x : Option Int) : (s.setLastShare n x).line.fallBreaches = s.line.fallBreaches := rfl
@[simp] theorem setLastShare_line_riseBreaches (s : State) (n : Nat) (x : Option Int) : (s.setLastShare n x).line.riseBreaches = s.line.riseBreaches := rfl
@[simp] theorem setLastShare_port (s : State) (n : Nat) (x : Option Int) : (s.setLastShare n x).port = s.port := rfl
@[simp] theorem setLastShare_record (s : State) (n : Nat) (x : Option Int) (m : Nat) : (s.setLastShare n x).record m = s.record m := rfl
@[simp] theorem setLastShare_tx (s : State) (n : Nat) (x : Option Int) (m : Nat) : (s.setLastShare n x).tx m = s.tx m := rfl
@[simp] theorem setLastShare_zone (s : State) (n : Nat) (x : Option Int) (y : Nat) : (s.setLastShare n x).zone y = s.zone y := rfl
@[simp] theorem setLastShare_sensor (s : State) (n : Nat) (x : Option Int) (j : Nat) : (s.setLastShare n x).sensor j = s.sensor j := rfl
@[simp] theorem setLastShare_phase (s : State) (n : Nat) (x : Option Int) (y : Nat) : (s.setLastShare n x).phase y = s.phase y := rfl
@[simp] theorem setLastShare_ticket (s : State) (n : Nat) (x : Option Int) (j : Nat) : (s.setLastShare n x).ticket j = s.ticket j := rfl
@[simp] theorem setLastShare_part (s : State) (n : Nat) (x : Option Int) (m : Nat) : (s.setLastShare n x).part m = s.part m := rfl
@[simp] theorem setLastShare_profile (s : State) (n : Nat) (x : Option Int) (q : Nat) : (s.setLastShare n x).profile q = s.profile q := rfl
@[simp] theorem setLastShare_isRunning (s : State) (n : Nat) (x : Option Int) : (s.setLastShare n x).isRunning = s.isRunning := rfl

/-! `setPort` -/

@[simp] theorem setPort_pending (s : State) (p : Port) : (s.setPort p).pending = s.pending := rfl
@[simp] theorem setPort_now (s : State) (p : Port) : (s.setPort p).now = s.now := rfl
@[simp] theorem setPort_choices (s : State) (p : Port) : (s.setPort p).choices = s.choices := rfl
@[simp] theorem setPort_inReset (s : State) (p : Port) : (s.setPort p).inReset = s.inReset := rfl
@[simp] theorem setPort_lastReset (s : State) (p : Port) : (s.setPort p).lastReset = s.lastReset := rfl
@[simp] theorem setPort_resetAt (s : State) (p : Port) : (s.setPort p).resetAt = s.resetAt := rfl
@[simp] theorem setPort_policy (s : State) (p : Port) : (s.setPort p).policy = s.policy := rfl
@[simp] theorem setPort_records (s : State) (p : Port) : (s.setPort p).records = s.records := rfl
@[simp] theorem setPort_governor (s : State) (p : Port) : (s.setPort p).governor = s.governor := rfl
@[simp] theorem setPort_profiles (s : State) (p : Port) : (s.setPort p).profiles = s.profiles := rfl
@[simp] theorem setPort_link (s : State) (p : Port) : (s.setPort p).link = s.link := rfl
@[simp] theorem setPort_raise (s : State) (p : Port) : (s.setPort p).raise = s.raise := rfl
@[simp] theorem setPort_shade (s : State) (p : Port) : (s.setPort p).shade = s.shade := rfl
@[simp] theorem setPort_lower (s : State) (p : Port) : (s.setPort p).lower = s.lower := rfl
@[simp] theorem setPort_line (s : State) (p : Port) : (s.setPort p).line = s.line := rfl
@[simp] theorem setPort_record (s : State) (p : Port) (m : Nat) : (s.setPort p).record m = s.record m := rfl
@[simp] theorem setPort_tx (s : State) (p : Port) (m : Nat) : (s.setPort p).tx m = s.tx m := rfl
@[simp] theorem setPort_zone (s : State) (p : Port) (y : Nat) : (s.setPort p).zone y = s.zone y := rfl
@[simp] theorem setPort_sensor (s : State) (p : Port) (j : Nat) : (s.setPort p).sensor j = s.sensor j := rfl
@[simp] theorem setPort_phase (s : State) (p : Port) (y : Nat) : (s.setPort p).phase y = s.phase y := rfl
@[simp] theorem setPort_ticket (s : State) (p : Port) (j : Nat) : (s.setPort p).ticket j = s.ticket j := rfl
@[simp] theorem setPort_part (s : State) (p : Port) (m : Nat) : (s.setPort p).part m = s.part m := rfl
@[simp] theorem setPort_lastShare (s : State) (p : Port) (m : Nat) : (s.setPort p).lastShare m = s.lastShare m := rfl
@[simp] theorem setPort_profile (s : State) (p : Port) (q : Nat) : (s.setPort p).profile q = s.profile q := rfl
@[simp] theorem setPort_isRunning (s : State) (p : Port) : (s.setPort p).isRunning = s.isRunning := rfl

/-! `raiseCause` -/

@[simp] theorem raiseCause_pending (s : State) (c : Cause) : (s.raiseCause c).pending = s.pending := rfl
@[simp] theorem raiseCause_now (s : State) (c : Cause) : (s.raiseCause c).now = s.now := rfl
@[simp] theorem raiseCause_choices (s : State) (c : Cause) : (s.raiseCause c).choices = s.choices := rfl
@[simp] theorem raiseCause_inReset (s : State) (c : Cause) : (s.raiseCause c).inReset = s.inReset := rfl
@[simp] theorem raiseCause_lastReset (s : State) (c : Cause) : (s.raiseCause c).lastReset = s.lastReset := rfl
@[simp] theorem raiseCause_resetAt (s : State) (c : Cause) : (s.raiseCause c).resetAt = s.resetAt := rfl
@[simp] theorem raiseCause_policy (s : State) (c : Cause) : (s.raiseCause c).policy = s.policy := rfl
@[simp] theorem raiseCause_records (s : State) (c : Cause) : (s.raiseCause c).records = s.records := rfl
@[simp] theorem raiseCause_governor (s : State) (c : Cause) : (s.raiseCause c).governor = s.governor := rfl
@[simp] theorem raiseCause_profiles (s : State) (c : Cause) : (s.raiseCause c).profiles = s.profiles := rfl
@[simp] theorem raiseCause_link (s : State) (c : Cause) : (s.raiseCause c).link = s.link := rfl
@[simp] theorem raiseCause_raise (s : State) (c : Cause) : (s.raiseCause c).raise = s.raise := rfl
@[simp] theorem raiseCause_shade (s : State) (c : Cause) : (s.raiseCause c).shade = s.shade := rfl
@[simp] theorem raiseCause_lower (s : State) (c : Cause) : (s.raiseCause c).lower = s.lower := rfl
@[simp] theorem raiseCause_line (s : State) (c : Cause) : (s.raiseCause c).line = s.line := rfl
@[simp] theorem raiseCause_port_csLow (s : State) (c : Cause) : (s.raiseCause c).port.csLow = s.port.csLow := rfl
@[simp] theorem raiseCause_port_sck (s : State) (c : Cause) : (s.raiseCause c).port.sck = s.port.sck := rfl
@[simp] theorem raiseCause_port_receiver (s : State) (c : Cause) : (s.raiseCause c).port.receiver = s.port.receiver := rfl
@[simp] theorem raiseCause_port_execution (s : State) (c : Cause) : (s.raiseCause c).port.execution = s.port.execution := rfl
@[simp] theorem raiseCause_port_pending (s : State) (c : Cause) : (s.raiseCause c).port.pending = s.port.pending := rfl
@[simp] theorem raiseCause_port_mask (s : State) (c : Cause) : (s.raiseCause c).port.mask = s.port.mask := rfl
@[simp] theorem raiseCause_port_lock (s : State) (c : Cause) : (s.raiseCause c).port.lock = s.port.lock := rfl
@[simp] theorem raiseCause_record (s : State) (c : Cause) (m : Nat) : (s.raiseCause c).record m = s.record m := rfl
@[simp] theorem raiseCause_tx (s : State) (c : Cause) (m : Nat) : (s.raiseCause c).tx m = s.tx m := rfl
@[simp] theorem raiseCause_zone (s : State) (c : Cause) (y : Nat) : (s.raiseCause c).zone y = s.zone y := rfl
@[simp] theorem raiseCause_sensor (s : State) (c : Cause) (j : Nat) : (s.raiseCause c).sensor j = s.sensor j := rfl
@[simp] theorem raiseCause_phase (s : State) (c : Cause) (y : Nat) : (s.raiseCause c).phase y = s.phase y := rfl
@[simp] theorem raiseCause_ticket (s : State) (c : Cause) (j : Nat) : (s.raiseCause c).ticket j = s.ticket j := rfl
@[simp] theorem raiseCause_part (s : State) (c : Cause) (m : Nat) : (s.raiseCause c).part m = s.part m := rfl
@[simp] theorem raiseCause_lastShare (s : State) (c : Cause) (m : Nat) : (s.raiseCause c).lastShare m = s.lastShare m := rfl
@[simp] theorem raiseCause_profile (s : State) (c : Cause) (q : Nat) : (s.raiseCause c).profile q = s.profile q := rfl
@[simp] theorem raiseCause_isRunning (s : State) (c : Cause) : (s.raiseCause c).isRunning = s.isRunning := rfl

/-! `reach` -/

@[simp] theorem reach_pending (s : State) (d : Nat) : (s.reach d).pending = s.pending := rfl
@[simp] theorem reach_choices (s : State) (d : Nat) : (s.reach d).choices = s.choices := rfl
@[simp] theorem reach_inReset (s : State) (d : Nat) : (s.reach d).inReset = s.inReset := rfl
@[simp] theorem reach_lastReset (s : State) (d : Nat) : (s.reach d).lastReset = s.lastReset := rfl
@[simp] theorem reach_resetAt (s : State) (d : Nat) : (s.reach d).resetAt = s.resetAt := rfl
@[simp] theorem reach_policy (s : State) (d : Nat) : (s.reach d).policy = s.policy := rfl
@[simp] theorem reach_records (s : State) (d : Nat) : (s.reach d).records = s.records := rfl
@[simp] theorem reach_governor (s : State) (d : Nat) : (s.reach d).governor = s.governor := rfl
@[simp] theorem reach_profiles (s : State) (d : Nat) : (s.reach d).profiles = s.profiles := rfl
@[simp] theorem reach_link (s : State) (d : Nat) : (s.reach d).link = s.link := rfl
@[simp] theorem reach_raise (s : State) (d : Nat) : (s.reach d).raise = s.raise := rfl
@[simp] theorem reach_shade (s : State) (d : Nat) : (s.reach d).shade = s.shade := rfl
@[simp] theorem reach_lower (s : State) (d : Nat) : (s.reach d).lower = s.lower := rfl
@[simp] theorem reach_line (s : State) (d : Nat) : (s.reach d).line = s.line := rfl
@[simp] theorem reach_port (s : State) (d : Nat) : (s.reach d).port = s.port := rfl
@[simp] theorem reach_record (s : State) (d : Nat) (m : Nat) : (s.reach d).record m = s.record m := rfl
@[simp] theorem reach_tx (s : State) (d : Nat) (m : Nat) : (s.reach d).tx m = s.tx m := rfl
@[simp] theorem reach_zone (s : State) (d : Nat) (y : Nat) : (s.reach d).zone y = s.zone y := rfl
@[simp] theorem reach_sensor (s : State) (d : Nat) (j : Nat) : (s.reach d).sensor j = s.sensor j := rfl
@[simp] theorem reach_phase (s : State) (d : Nat) (y : Nat) : (s.reach d).phase y = s.phase y := rfl
@[simp] theorem reach_ticket (s : State) (d : Nat) (j : Nat) : (s.reach d).ticket j = s.ticket j := rfl
@[simp] theorem reach_part (s : State) (d : Nat) (m : Nat) : (s.reach d).part m = s.part m := rfl
@[simp] theorem reach_lastShare (s : State) (d : Nat) (m : Nat) : (s.reach d).lastShare m = s.lastShare m := rfl
@[simp] theorem reach_profile (s : State) (d : Nat) (q : Nat) : (s.reach d).profile q = s.profile q := rfl
@[simp] theorem reach_isRunning (s : State) (d : Nat) : (s.reach d).isRunning = s.isRunning := rfl

/-! `settle` -/

@[simp] theorem settle_pending (s : State) : s.settle.pending = s.pending := rfl
@[simp] theorem settle_now (s : State) : s.settle.now = s.now := rfl
@[simp] theorem settle_choices (s : State) : s.settle.choices = s.choices := rfl
@[simp] theorem settle_inReset (s : State) : s.settle.inReset = s.inReset := rfl
@[simp] theorem settle_lastReset (s : State) : s.settle.lastReset = s.lastReset := rfl
@[simp] theorem settle_resetAt (s : State) : s.settle.resetAt = s.resetAt := rfl
@[simp] theorem settle_policy (s : State) : s.settle.policy = s.policy := rfl
@[simp] theorem settle_records (s : State) : s.settle.records = s.records := rfl
@[simp] theorem settle_governor (s : State) : s.settle.governor = s.governor := rfl
@[simp] theorem settle_profiles (s : State) : s.settle.profiles = s.profiles := rfl
@[simp] theorem settle_link_sweep (s : State) : s.settle.link.sweep = s.link.sweep := rfl
@[simp] theorem settle_link_served (s : State) : s.settle.link.served = s.link.served := rfl
@[simp] theorem settle_link_txn (s : State) : s.settle.link.txn = s.link.txn := rfl
@[simp] theorem settle_link_refuse (s : State) : s.settle.link.refuse = s.link.refuse := rfl
@[simp] theorem settle_link_recallTx (s : State) : s.settle.link.recallTx = s.link.recallTx := rfl
@[simp] theorem settle_link_zoneEnvs (s : State) : s.settle.link.zoneEnvs = s.link.zoneEnvs := rfl
@[simp] theorem settle_raise (s : State) : s.settle.raise = s.raise := rfl
@[simp] theorem settle_shade (s : State) : s.settle.shade = s.shade := rfl
@[simp] theorem settle_lower (s : State) : s.settle.lower = s.lower := rfl
@[simp] theorem settle_line (s : State) : s.settle.line = s.line := rfl
@[simp] theorem settle_port (s : State) : s.settle.port = s.port := rfl
@[simp] theorem settle_record (s : State) (m : Nat) : s.settle.record m = s.record m := rfl
@[simp] theorem settle_zone (s : State) (y : Nat) : s.settle.zone y = s.zone y := rfl
@[simp] theorem settle_sensor (s : State) (j : Nat) : s.settle.sensor j = s.sensor j := rfl
@[simp] theorem settle_phase (s : State) (y : Nat) : s.settle.phase y = s.phase y := rfl
@[simp] theorem settle_ticket (s : State) (j : Nat) : s.settle.ticket j = s.ticket j := rfl
@[simp] theorem settle_part (s : State) (m : Nat) : s.settle.part m = s.part m := rfl
@[simp] theorem settle_lastShare (s : State) (m : Nat) : s.settle.lastShare m = s.lastShare m := rfl
@[simp] theorem settle_profile (s : State) (q : Nat) : s.settle.profile q = s.profile q := rfl
@[simp] theorem settle_isRunning (s : State) : s.settle.isRunning = s.isRunning := rfl

/-! `removeEntry` -/

@[simp] theorem removeEntry_pending (s : State) (n : Nat) : (s.removeEntry n).pending = s.pending := rfl
@[simp] theorem removeEntry_now (s : State) (n : Nat) : (s.removeEntry n).now = s.now := rfl
@[simp] theorem removeEntry_choices (s : State) (n : Nat) : (s.removeEntry n).choices = s.choices := rfl
@[simp] theorem removeEntry_inReset (s : State) (n : Nat) : (s.removeEntry n).inReset = s.inReset := rfl
@[simp] theorem removeEntry_lastReset (s : State) (n : Nat) : (s.removeEntry n).lastReset = s.lastReset := rfl
@[simp] theorem removeEntry_resetAt (s : State) (n : Nat) : (s.removeEntry n).resetAt = s.resetAt := rfl
@[simp] theorem removeEntry_policy (s : State) (n : Nat) : (s.removeEntry n).policy = s.policy := rfl
@[simp] theorem removeEntry_records (s : State) (n : Nat) : (s.removeEntry n).records = s.records := rfl
@[simp] theorem removeEntry_governor (s : State) (n : Nat) : (s.removeEntry n).governor = s.governor := rfl
@[simp] theorem removeEntry_profiles (s : State) (n : Nat) : (s.removeEntry n).profiles = s.profiles := rfl
@[simp] theorem removeEntry_link (s : State) (n : Nat) : (s.removeEntry n).link = s.link := rfl
@[simp] theorem removeEntry_raise_tickets (s : State) (n : Nat) : (s.removeEntry n).raise.tickets = s.raise.tickets := rfl
@[simp] theorem removeEntry_raise_riseClaimed (s : State) (n : Nat) : (s.removeEntry n).raise.riseClaimed = s.raise.riseClaimed := rfl
@[simp] theorem removeEntry_raise_nextSeq (s : State) (n : Nat) : (s.removeEntry n).raise.nextSeq = s.raise.nextSeq := rfl
@[simp] theorem removeEntry_raise_holdLine (s : State) (n : Nat) : (s.removeEntry n).raise.holdLine = s.raise.holdLine := rfl
@[simp] theorem removeEntry_raise_holdTimer (s : State) (n : Nat) : (s.removeEntry n).raise.holdTimer = s.raise.holdTimer := rfl
@[simp] theorem removeEntry_raise_holdFiltered (s : State) (n : Nat) : (s.removeEntry n).raise.holdFiltered = s.raise.holdFiltered := rfl
@[simp] theorem removeEntry_raise_holdFlag (s : State) (n : Nat) : (s.removeEntry n).raise.holdFlag = s.raise.holdFlag := rfl
@[simp] theorem removeEntry_raise_effHold (s : State) (n : Nat) : (s.removeEntry n).raise.effHold = s.raise.effHold := rfl
@[simp] theorem removeEntry_raise_notices (s : State) (n : Nat) : (s.removeEntry n).raise.notices = s.raise.notices := rfl
@[simp] theorem removeEntry_shade (s : State) (n : Nat) : (s.removeEntry n).shade = s.shade := rfl
@[simp] theorem removeEntry_lower (s : State) (n : Nat) : (s.removeEntry n).lower = s.lower := rfl
@[simp] theorem removeEntry_line (s : State) (n : Nat) : (s.removeEntry n).line = s.line := rfl
@[simp] theorem removeEntry_port (s : State) (n : Nat) : (s.removeEntry n).port = s.port := rfl
@[simp] theorem removeEntry_record (s : State) (n : Nat) (m : Nat) : (s.removeEntry n).record m = s.record m := rfl
@[simp] theorem removeEntry_tx (s : State) (n : Nat) (m : Nat) : (s.removeEntry n).tx m = s.tx m := rfl
@[simp] theorem removeEntry_zone (s : State) (n : Nat) (y : Nat) : (s.removeEntry n).zone y = s.zone y := rfl
@[simp] theorem removeEntry_sensor (s : State) (n : Nat) (j : Nat) : (s.removeEntry n).sensor j = s.sensor j := rfl
@[simp] theorem removeEntry_phase (s : State) (n : Nat) (y : Nat) : (s.removeEntry n).phase y = s.phase y := rfl
@[simp] theorem removeEntry_ticket (s : State) (n : Nat) (j : Nat) : (s.removeEntry n).ticket j = s.ticket j := rfl
@[simp] theorem removeEntry_part (s : State) (n : Nat) (m : Nat) : (s.removeEntry n).part m = s.part m := rfl
@[simp] theorem removeEntry_lastShare (s : State) (n : Nat) (m : Nat) : (s.removeEntry n).lastShare m = s.lastShare m := rfl
@[simp] theorem removeEntry_profile (s : State) (n : Nat) (q : Nat) : (s.removeEntry n).profile q = s.profile q := rfl
@[simp] theorem removeEntry_isRunning (s : State) (n : Nat) : (s.removeEntry n).isRunning = s.isRunning := rfl

/-! `leaveWait` -/

@[simp] theorem leaveWait_pending (s : State) (z : Nat) : (s.leaveWait z).pending = s.pending := rfl
@[simp] theorem leaveWait_now (s : State) (z : Nat) : (s.leaveWait z).now = s.now := rfl
@[simp] theorem leaveWait_choices (s : State) (z : Nat) : (s.leaveWait z).choices = s.choices := rfl
@[simp] theorem leaveWait_inReset (s : State) (z : Nat) : (s.leaveWait z).inReset = s.inReset := rfl
@[simp] theorem leaveWait_lastReset (s : State) (z : Nat) : (s.leaveWait z).lastReset = s.lastReset := rfl
@[simp] theorem leaveWait_resetAt (s : State) (z : Nat) : (s.leaveWait z).resetAt = s.resetAt := rfl
@[simp] theorem leaveWait_policy (s : State) (z : Nat) : (s.leaveWait z).policy = s.policy := rfl
@[simp] theorem leaveWait_records (s : State) (z : Nat) : (s.leaveWait z).records = s.records := rfl
@[simp] theorem leaveWait_governor (s : State) (z : Nat) : (s.leaveWait z).governor = s.governor := rfl
@[simp] theorem leaveWait_profiles (s : State) (z : Nat) : (s.leaveWait z).profiles = s.profiles := rfl
@[simp] theorem leaveWait_link (s : State) (z : Nat) : (s.leaveWait z).link = s.link := rfl
@[simp] theorem leaveWait_raise (s : State) (z : Nat) : (s.leaveWait z).raise = s.raise := rfl
@[simp] theorem leaveWait_shade (s : State) (z : Nat) : (s.leaveWait z).shade = s.shade := rfl
@[simp] theorem leaveWait_lower_phases (s : State) (z : Nat) : (s.leaveWait z).lower.phases = s.lower.phases := rfl
@[simp] theorem leaveWait_lower_fallClaimed (s : State) (z : Nat) : (s.leaveWait z).lower.fallClaimed = s.lower.fallClaimed := rfl
@[simp] theorem leaveWait_lower_nextSeq (s : State) (z : Nat) : (s.leaveWait z).lower.nextSeq = s.lower.nextSeq := rfl
@[simp] theorem leaveWait_lower_notices (s : State) (z : Nat) : (s.leaveWait z).lower.notices = s.lower.notices := rfl
@[simp] theorem leaveWait_line (s : State) (z : Nat) : (s.leaveWait z).line = s.line := rfl
@[simp] theorem leaveWait_port (s : State) (z : Nat) : (s.leaveWait z).port = s.port := rfl
@[simp] theorem leaveWait_record (s : State) (z : Nat) (m : Nat) : (s.leaveWait z).record m = s.record m := rfl
@[simp] theorem leaveWait_tx (s : State) (z : Nat) (m : Nat) : (s.leaveWait z).tx m = s.tx m := rfl
@[simp] theorem leaveWait_zone (s : State) (z : Nat) (y : Nat) : (s.leaveWait z).zone y = s.zone y := rfl
@[simp] theorem leaveWait_sensor (s : State) (z : Nat) (j : Nat) : (s.leaveWait z).sensor j = s.sensor j := rfl
@[simp] theorem leaveWait_phase (s : State) (z : Nat) (y : Nat) : (s.leaveWait z).phase y = s.phase y := rfl
@[simp] theorem leaveWait_ticket (s : State) (z : Nat) (j : Nat) : (s.leaveWait z).ticket j = s.ticket j := rfl
@[simp] theorem leaveWait_part (s : State) (z : Nat) (m : Nat) : (s.leaveWait z).part m = s.part m := rfl
@[simp] theorem leaveWait_lastShare (s : State) (z : Nat) (m : Nat) : (s.leaveWait z).lastShare m = s.lastShare m := rfl
@[simp] theorem leaveWait_profile (s : State) (z : Nat) (q : Nat) : (s.leaveWait z).profile q = s.profile q := rfl
@[simp] theorem leaveWait_isRunning (s : State) (z : Nat) : (s.leaveWait z).isRunning = s.isRunning := rfl

/-! `enterWait` -/

@[simp] theorem enterWait_pending (s : State) (z : Nat) : (s.enterWait z).pending = s.pending := rfl
@[simp] theorem enterWait_now (s : State) (z : Nat) : (s.enterWait z).now = s.now := rfl
@[simp] theorem enterWait_choices (s : State) (z : Nat) : (s.enterWait z).choices = s.choices := rfl
@[simp] theorem enterWait_inReset (s : State) (z : Nat) : (s.enterWait z).inReset = s.inReset := rfl
@[simp] theorem enterWait_lastReset (s : State) (z : Nat) : (s.enterWait z).lastReset = s.lastReset := rfl
@[simp] theorem enterWait_resetAt (s : State) (z : Nat) : (s.enterWait z).resetAt = s.resetAt := rfl
@[simp] theorem enterWait_policy (s : State) (z : Nat) : (s.enterWait z).policy = s.policy := rfl
@[simp] theorem enterWait_records (s : State) (z : Nat) : (s.enterWait z).records = s.records := rfl
@[simp] theorem enterWait_governor (s : State) (z : Nat) : (s.enterWait z).governor = s.governor := rfl
@[simp] theorem enterWait_profiles (s : State) (z : Nat) : (s.enterWait z).profiles = s.profiles := rfl
@[simp] theorem enterWait_link (s : State) (z : Nat) : (s.enterWait z).link = s.link := rfl
@[simp] theorem enterWait_raise (s : State) (z : Nat) : (s.enterWait z).raise = s.raise := rfl
@[simp] theorem enterWait_shade (s : State) (z : Nat) : (s.enterWait z).shade = s.shade := rfl
@[simp] theorem enterWait_lower_phases (s : State) (z : Nat) : (s.enterWait z).lower.phases = s.lower.phases := rfl
@[simp] theorem enterWait_lower_fallClaimed (s : State) (z : Nat) : (s.enterWait z).lower.fallClaimed = s.lower.fallClaimed := rfl
@[simp] theorem enterWait_lower_nextSeq (s : State) (z : Nat) : (s.enterWait z).lower.nextSeq = s.lower.nextSeq := rfl
@[simp] theorem enterWait_lower_notices (s : State) (z : Nat) : (s.enterWait z).lower.notices = s.lower.notices := rfl
@[simp] theorem enterWait_line (s : State) (z : Nat) : (s.enterWait z).line = s.line := rfl
@[simp] theorem enterWait_port (s : State) (z : Nat) : (s.enterWait z).port = s.port := rfl
@[simp] theorem enterWait_record (s : State) (z : Nat) (m : Nat) : (s.enterWait z).record m = s.record m := rfl
@[simp] theorem enterWait_tx (s : State) (z : Nat) (m : Nat) : (s.enterWait z).tx m = s.tx m := rfl
@[simp] theorem enterWait_zone (s : State) (z : Nat) (y : Nat) : (s.enterWait z).zone y = s.zone y := rfl
@[simp] theorem enterWait_sensor (s : State) (z : Nat) (j : Nat) : (s.enterWait z).sensor j = s.sensor j := rfl
@[simp] theorem enterWait_phase (s : State) (z : Nat) (y : Nat) : (s.enterWait z).phase y = s.phase y := rfl
@[simp] theorem enterWait_ticket (s : State) (z : Nat) (j : Nat) : (s.enterWait z).ticket j = s.ticket j := rfl
@[simp] theorem enterWait_part (s : State) (z : Nat) (m : Nat) : (s.enterWait z).part m = s.part m := rfl
@[simp] theorem enterWait_lastShare (s : State) (z : Nat) (m : Nat) : (s.enterWait z).lastShare m = s.lastShare m := rfl
@[simp] theorem enterWait_profile (s : State) (z : Nat) (q : Nat) : (s.enterWait z).profile q = s.profile q := rfl
@[simp] theorem enterWait_isRunning (s : State) (z : Nat) : (s.enterWait z).isRunning = s.isRunning := rfl

/-! `beginTxn` -/

@[simp] theorem beginTxn_pending (s : State) (k : TxnKind) (f : List Byte) : (s.beginTxn k f).pending = s.pending := rfl
@[simp] theorem beginTxn_now (s : State) (k : TxnKind) (f : List Byte) : (s.beginTxn k f).now = s.now := rfl
@[simp] theorem beginTxn_choices (s : State) (k : TxnKind) (f : List Byte) : (s.beginTxn k f).choices = s.choices := rfl
@[simp] theorem beginTxn_inReset (s : State) (k : TxnKind) (f : List Byte) : (s.beginTxn k f).inReset = s.inReset := rfl
@[simp] theorem beginTxn_lastReset (s : State) (k : TxnKind) (f : List Byte) : (s.beginTxn k f).lastReset = s.lastReset := rfl
@[simp] theorem beginTxn_resetAt (s : State) (k : TxnKind) (f : List Byte) : (s.beginTxn k f).resetAt = s.resetAt := rfl
@[simp] theorem beginTxn_policy (s : State) (k : TxnKind) (f : List Byte) : (s.beginTxn k f).policy = s.policy := rfl
@[simp] theorem beginTxn_records (s : State) (k : TxnKind) (f : List Byte) : (s.beginTxn k f).records = s.records := rfl
@[simp] theorem beginTxn_governor (s : State) (k : TxnKind) (f : List Byte) : (s.beginTxn k f).governor = s.governor := rfl
@[simp] theorem beginTxn_profiles (s : State) (k : TxnKind) (f : List Byte) : (s.beginTxn k f).profiles = s.profiles := rfl
@[simp] theorem beginTxn_link_sweep (s : State) (k : TxnKind) (f : List Byte) : (s.beginTxn k f).link.sweep = s.link.sweep := rfl
@[simp] theorem beginTxn_link_served (s : State) (k : TxnKind) (f : List Byte) : (s.beginTxn k f).link.served = s.link.served := rfl
@[simp] theorem beginTxn_link_slotTx (s : State) (k : TxnKind) (f : List Byte) : (s.beginTxn k f).link.slotTx = s.link.slotTx := rfl
@[simp] theorem beginTxn_link_refuse (s : State) (k : TxnKind) (f : List Byte) : (s.beginTxn k f).link.refuse = s.link.refuse := rfl
@[simp] theorem beginTxn_link_recallTx (s : State) (k : TxnKind) (f : List Byte) : (s.beginTxn k f).link.recallTx = s.link.recallTx := rfl
@[simp] theorem beginTxn_link_joinWindow (s : State) (k : TxnKind) (f : List Byte) : (s.beginTxn k f).link.joinWindow = s.link.joinWindow := rfl
@[simp] theorem beginTxn_link_zoneEnvs (s : State) (k : TxnKind) (f : List Byte) : (s.beginTxn k f).link.zoneEnvs = s.link.zoneEnvs := rfl
@[simp] theorem beginTxn_raise (s : State) (k : TxnKind) (f : List Byte) : (s.beginTxn k f).raise = s.raise := rfl
@[simp] theorem beginTxn_shade (s : State) (k : TxnKind) (f : List Byte) : (s.beginTxn k f).shade = s.shade := rfl
@[simp] theorem beginTxn_lower (s : State) (k : TxnKind) (f : List Byte) : (s.beginTxn k f).lower = s.lower := rfl
@[simp] theorem beginTxn_line (s : State) (k : TxnKind) (f : List Byte) : (s.beginTxn k f).line = s.line := rfl
@[simp] theorem beginTxn_port (s : State) (k : TxnKind) (f : List Byte) : (s.beginTxn k f).port = s.port := rfl
@[simp] theorem beginTxn_record (s : State) (k : TxnKind) (f : List Byte) (m : Nat) : (s.beginTxn k f).record m = s.record m := rfl
@[simp] theorem beginTxn_tx (s : State) (k : TxnKind) (f : List Byte) (m : Nat) : (s.beginTxn k f).tx m = s.tx m := rfl
@[simp] theorem beginTxn_zone (s : State) (k : TxnKind) (f : List Byte) (y : Nat) : (s.beginTxn k f).zone y = s.zone y := rfl
@[simp] theorem beginTxn_sensor (s : State) (k : TxnKind) (f : List Byte) (j : Nat) : (s.beginTxn k f).sensor j = s.sensor j := rfl
@[simp] theorem beginTxn_phase (s : State) (k : TxnKind) (f : List Byte) (y : Nat) : (s.beginTxn k f).phase y = s.phase y := rfl
@[simp] theorem beginTxn_ticket (s : State) (k : TxnKind) (f : List Byte) (j : Nat) : (s.beginTxn k f).ticket j = s.ticket j := rfl
@[simp] theorem beginTxn_part (s : State) (k : TxnKind) (f : List Byte) (m : Nat) : (s.beginTxn k f).part m = s.part m := rfl
@[simp] theorem beginTxn_lastShare (s : State) (k : TxnKind) (f : List Byte) (m : Nat) : (s.beginTxn k f).lastShare m = s.lastShare m := rfl
@[simp] theorem beginTxn_profile (s : State) (k : TxnKind) (f : List Byte) (q : Nat) : (s.beginTxn k f).profile q = s.profile q := rfl
@[simp] theorem beginTxn_isRunning (s : State) (k : TxnKind) (f : List Byte) : (s.beginTxn k f).isRunning = s.isRunning := rfl

/-! `endTxn` -/

@[simp] theorem endTxn_pending (s : State) : s.endTxn.pending = s.pending := rfl
@[simp] theorem endTxn_now (s : State) : s.endTxn.now = s.now := rfl
@[simp] theorem endTxn_choices (s : State) : s.endTxn.choices = s.choices := rfl
@[simp] theorem endTxn_inReset (s : State) : s.endTxn.inReset = s.inReset := rfl
@[simp] theorem endTxn_lastReset (s : State) : s.endTxn.lastReset = s.lastReset := rfl
@[simp] theorem endTxn_resetAt (s : State) : s.endTxn.resetAt = s.resetAt := rfl
@[simp] theorem endTxn_policy (s : State) : s.endTxn.policy = s.policy := rfl
@[simp] theorem endTxn_records (s : State) : s.endTxn.records = s.records := rfl
@[simp] theorem endTxn_governor (s : State) : s.endTxn.governor = s.governor := rfl
@[simp] theorem endTxn_profiles (s : State) : s.endTxn.profiles = s.profiles := rfl
@[simp] theorem endTxn_link_sweep (s : State) : s.endTxn.link.sweep = s.link.sweep := rfl
@[simp] theorem endTxn_link_served (s : State) : s.endTxn.link.served = s.link.served := rfl
@[simp] theorem endTxn_link_slotTx (s : State) : s.endTxn.link.slotTx = s.link.slotTx := rfl
@[simp] theorem endTxn_link_refuse (s : State) : s.endTxn.link.refuse = s.link.refuse := rfl
@[simp] theorem endTxn_link_recallTx (s : State) : s.endTxn.link.recallTx = s.link.recallTx := rfl
@[simp] theorem endTxn_link_joinWindow (s : State) : s.endTxn.link.joinWindow = s.link.joinWindow := rfl
@[simp] theorem endTxn_link_zoneEnvs (s : State) : s.endTxn.link.zoneEnvs = s.link.zoneEnvs := rfl
@[simp] theorem endTxn_raise (s : State) : s.endTxn.raise = s.raise := rfl
@[simp] theorem endTxn_shade (s : State) : s.endTxn.shade = s.shade := rfl
@[simp] theorem endTxn_lower (s : State) : s.endTxn.lower = s.lower := rfl
@[simp] theorem endTxn_line (s : State) : s.endTxn.line = s.line := rfl
@[simp] theorem endTxn_port (s : State) : s.endTxn.port = s.port := rfl
@[simp] theorem endTxn_record (s : State) (m : Nat) : s.endTxn.record m = s.record m := rfl
@[simp] theorem endTxn_tx (s : State) (m : Nat) : s.endTxn.tx m = s.tx m := rfl
@[simp] theorem endTxn_zone (s : State) (y : Nat) : s.endTxn.zone y = s.zone y := rfl
@[simp] theorem endTxn_sensor (s : State) (j : Nat) : s.endTxn.sensor j = s.sensor j := rfl
@[simp] theorem endTxn_phase (s : State) (y : Nat) : s.endTxn.phase y = s.phase y := rfl
@[simp] theorem endTxn_ticket (s : State) (j : Nat) : s.endTxn.ticket j = s.ticket j := rfl
@[simp] theorem endTxn_part (s : State) (m : Nat) : s.endTxn.part m = s.part m := rfl
@[simp] theorem endTxn_lastShare (s : State) (m : Nat) : s.endTxn.lastShare m = s.lastShare m := rfl
@[simp] theorem endTxn_profile (s : State) (q : Nat) : s.endTxn.profile q = s.profile q := rfl
@[simp] theorem endTxn_isRunning (s : State) : s.endTxn.isRunning = s.isRunning := rfl

/-! `advanceSweep` -/

@[simp] theorem advanceSweep_pending (s : State) : s.advanceSweep.pending = s.pending := rfl
@[simp] theorem advanceSweep_now (s : State) : s.advanceSweep.now = s.now := rfl
@[simp] theorem advanceSweep_choices (s : State) : s.advanceSweep.choices = s.choices := rfl
@[simp] theorem advanceSweep_inReset (s : State) : s.advanceSweep.inReset = s.inReset := rfl
@[simp] theorem advanceSweep_lastReset (s : State) : s.advanceSweep.lastReset = s.lastReset := rfl
@[simp] theorem advanceSweep_resetAt (s : State) : s.advanceSweep.resetAt = s.resetAt := rfl
@[simp] theorem advanceSweep_policy (s : State) : s.advanceSweep.policy = s.policy := rfl
@[simp] theorem advanceSweep_records (s : State) : s.advanceSweep.records = s.records := rfl
@[simp] theorem advanceSweep_governor (s : State) : s.advanceSweep.governor = s.governor := rfl
@[simp] theorem advanceSweep_profiles (s : State) : s.advanceSweep.profiles = s.profiles := rfl
@[simp] theorem advanceSweep_link_txn (s : State) : s.advanceSweep.link.txn = s.link.txn := rfl
@[simp] theorem advanceSweep_link_slotTx (s : State) : s.advanceSweep.link.slotTx = s.link.slotTx := rfl
@[simp] theorem advanceSweep_link_refuse (s : State) : s.advanceSweep.link.refuse = s.link.refuse := rfl
@[simp] theorem advanceSweep_link_recallTx (s : State) : s.advanceSweep.link.recallTx = s.link.recallTx := rfl
@[simp] theorem advanceSweep_link_joinWindow (s : State) : s.advanceSweep.link.joinWindow = s.link.joinWindow := rfl
@[simp] theorem advanceSweep_link_zoneEnvs (s : State) : s.advanceSweep.link.zoneEnvs = s.link.zoneEnvs := rfl
@[simp] theorem advanceSweep_raise (s : State) : s.advanceSweep.raise = s.raise := rfl
@[simp] theorem advanceSweep_shade (s : State) : s.advanceSweep.shade = s.shade := rfl
@[simp] theorem advanceSweep_lower (s : State) : s.advanceSweep.lower = s.lower := rfl
@[simp] theorem advanceSweep_line (s : State) : s.advanceSweep.line = s.line := rfl
@[simp] theorem advanceSweep_port (s : State) : s.advanceSweep.port = s.port := rfl
@[simp] theorem advanceSweep_record (s : State) (m : Nat) : s.advanceSweep.record m = s.record m := rfl
@[simp] theorem advanceSweep_tx (s : State) (m : Nat) : s.advanceSweep.tx m = s.tx m := rfl
@[simp] theorem advanceSweep_zone (s : State) (y : Nat) : s.advanceSweep.zone y = s.zone y := rfl
@[simp] theorem advanceSweep_sensor (s : State) (j : Nat) : s.advanceSweep.sensor j = s.sensor j := rfl
@[simp] theorem advanceSweep_phase (s : State) (y : Nat) : s.advanceSweep.phase y = s.phase y := rfl
@[simp] theorem advanceSweep_ticket (s : State) (j : Nat) : s.advanceSweep.ticket j = s.ticket j := rfl
@[simp] theorem advanceSweep_part (s : State) (m : Nat) : s.advanceSweep.part m = s.part m := rfl
@[simp] theorem advanceSweep_lastShare (s : State) (m : Nat) : s.advanceSweep.lastShare m = s.lastShare m := rfl
@[simp] theorem advanceSweep_profile (s : State) (q : Nat) : s.advanceSweep.profile q = s.profile q := rfl
@[simp] theorem advanceSweep_isRunning (s : State) : s.advanceSweep.isRunning = s.isRunning := rfl

/-! `portIdle` -/

@[simp] theorem portIdle_pending (s : State) : s.portIdle.pending = s.pending := rfl
@[simp] theorem portIdle_now (s : State) : s.portIdle.now = s.now := rfl
@[simp] theorem portIdle_choices (s : State) : s.portIdle.choices = s.choices := rfl
@[simp] theorem portIdle_inReset (s : State) : s.portIdle.inReset = s.inReset := rfl
@[simp] theorem portIdle_lastReset (s : State) : s.portIdle.lastReset = s.lastReset := rfl
@[simp] theorem portIdle_resetAt (s : State) : s.portIdle.resetAt = s.resetAt := rfl
@[simp] theorem portIdle_policy (s : State) : s.portIdle.policy = s.policy := rfl
@[simp] theorem portIdle_records (s : State) : s.portIdle.records = s.records := rfl
@[simp] theorem portIdle_governor (s : State) : s.portIdle.governor = s.governor := rfl
@[simp] theorem portIdle_profiles (s : State) : s.portIdle.profiles = s.profiles := rfl
@[simp] theorem portIdle_link (s : State) : s.portIdle.link = s.link := rfl
@[simp] theorem portIdle_raise (s : State) : s.portIdle.raise = s.raise := rfl
@[simp] theorem portIdle_shade (s : State) : s.portIdle.shade = s.shade := rfl
@[simp] theorem portIdle_lower (s : State) : s.portIdle.lower = s.lower := rfl
@[simp] theorem portIdle_line (s : State) : s.portIdle.line = s.line := rfl
@[simp] theorem portIdle_port_sck (s : State) : s.portIdle.port.sck = s.port.sck := rfl
@[simp] theorem portIdle_port_execution (s : State) : s.portIdle.port.execution = s.port.execution := rfl
@[simp] theorem portIdle_port_pending (s : State) : s.portIdle.port.pending = s.port.pending := rfl
@[simp] theorem portIdle_port_causes (s : State) : s.portIdle.port.causes = s.port.causes := rfl
@[simp] theorem portIdle_port_mask (s : State) : s.portIdle.port.mask = s.port.mask := rfl
@[simp] theorem portIdle_port_attn (s : State) : s.portIdle.port.attn = s.port.attn := rfl
@[simp] theorem portIdle_port_lock (s : State) : s.portIdle.port.lock = s.port.lock := rfl
@[simp] theorem portIdle_record (s : State) (m : Nat) : s.portIdle.record m = s.record m := rfl
@[simp] theorem portIdle_tx (s : State) (m : Nat) : s.portIdle.tx m = s.tx m := rfl
@[simp] theorem portIdle_zone (s : State) (y : Nat) : s.portIdle.zone y = s.zone y := rfl
@[simp] theorem portIdle_sensor (s : State) (j : Nat) : s.portIdle.sensor j = s.sensor j := rfl
@[simp] theorem portIdle_phase (s : State) (y : Nat) : s.portIdle.phase y = s.phase y := rfl
@[simp] theorem portIdle_ticket (s : State) (j : Nat) : s.portIdle.ticket j = s.ticket j := rfl
@[simp] theorem portIdle_part (s : State) (m : Nat) : s.portIdle.part m = s.part m := rfl
@[simp] theorem portIdle_lastShare (s : State) (m : Nat) : s.portIdle.lastShare m = s.lastShare m := rfl
@[simp] theorem portIdle_profile (s : State) (q : Nat) : s.portIdle.profile q = s.profile q := rfl
@[simp] theorem portIdle_isRunning (s : State) : s.portIdle.isRunning = s.isRunning := rfl

/-! `beginExecution` -/

@[simp] theorem beginExecution_pending (s : State) (r : Option Response) : (s.beginExecution r).pending = s.pending := rfl
@[simp] theorem beginExecution_now (s : State) (r : Option Response) : (s.beginExecution r).now = s.now := rfl
@[simp] theorem beginExecution_choices (s : State) (r : Option Response) : (s.beginExecution r).choices = s.choices := rfl
@[simp] theorem beginExecution_inReset (s : State) (r : Option Response) : (s.beginExecution r).inReset = s.inReset := rfl
@[simp] theorem beginExecution_lastReset (s : State) (r : Option Response) : (s.beginExecution r).lastReset = s.lastReset := rfl
@[simp] theorem beginExecution_resetAt (s : State) (r : Option Response) : (s.beginExecution r).resetAt = s.resetAt := rfl
@[simp] theorem beginExecution_policy (s : State) (r : Option Response) : (s.beginExecution r).policy = s.policy := rfl
@[simp] theorem beginExecution_records (s : State) (r : Option Response) : (s.beginExecution r).records = s.records := rfl
@[simp] theorem beginExecution_governor (s : State) (r : Option Response) : (s.beginExecution r).governor = s.governor := rfl
@[simp] theorem beginExecution_profiles (s : State) (r : Option Response) : (s.beginExecution r).profiles = s.profiles := rfl
@[simp] theorem beginExecution_link (s : State) (r : Option Response) : (s.beginExecution r).link = s.link := rfl
@[simp] theorem beginExecution_raise (s : State) (r : Option Response) : (s.beginExecution r).raise = s.raise := rfl
@[simp] theorem beginExecution_shade (s : State) (r : Option Response) : (s.beginExecution r).shade = s.shade := rfl
@[simp] theorem beginExecution_lower (s : State) (r : Option Response) : (s.beginExecution r).lower = s.lower := rfl
@[simp] theorem beginExecution_line (s : State) (r : Option Response) : (s.beginExecution r).line = s.line := rfl
@[simp] theorem beginExecution_port_csLow (s : State) (r : Option Response) : (s.beginExecution r).port.csLow = s.port.csLow := rfl
@[simp] theorem beginExecution_port_sck (s : State) (r : Option Response) : (s.beginExecution r).port.sck = s.port.sck := rfl
@[simp] theorem beginExecution_port_receiver (s : State) (r : Option Response) : (s.beginExecution r).port.receiver = s.port.receiver := rfl
@[simp] theorem beginExecution_port_pending (s : State) (r : Option Response) : (s.beginExecution r).port.pending = s.port.pending := rfl
@[simp] theorem beginExecution_port_causes (s : State) (r : Option Response) : (s.beginExecution r).port.causes = s.port.causes := rfl
@[simp] theorem beginExecution_port_mask (s : State) (r : Option Response) : (s.beginExecution r).port.mask = s.port.mask := rfl
@[simp] theorem beginExecution_port_attn (s : State) (r : Option Response) : (s.beginExecution r).port.attn = s.port.attn := rfl
@[simp] theorem beginExecution_port_lock (s : State) (r : Option Response) : (s.beginExecution r).port.lock = s.port.lock := rfl
@[simp] theorem beginExecution_record (s : State) (r : Option Response) (m : Nat) : (s.beginExecution r).record m = s.record m := rfl
@[simp] theorem beginExecution_tx (s : State) (r : Option Response) (m : Nat) : (s.beginExecution r).tx m = s.tx m := rfl
@[simp] theorem beginExecution_zone (s : State) (r : Option Response) (y : Nat) : (s.beginExecution r).zone y = s.zone y := rfl
@[simp] theorem beginExecution_sensor (s : State) (r : Option Response) (j : Nat) : (s.beginExecution r).sensor j = s.sensor j := rfl
@[simp] theorem beginExecution_phase (s : State) (r : Option Response) (y : Nat) : (s.beginExecution r).phase y = s.phase y := rfl
@[simp] theorem beginExecution_ticket (s : State) (r : Option Response) (j : Nat) : (s.beginExecution r).ticket j = s.ticket j := rfl
@[simp] theorem beginExecution_part (s : State) (r : Option Response) (m : Nat) : (s.beginExecution r).part m = s.part m := rfl
@[simp] theorem beginExecution_lastShare (s : State) (r : Option Response) (m : Nat) : (s.beginExecution r).lastShare m = s.lastShare m := rfl
@[simp] theorem beginExecution_profile (s : State) (r : Option Response) (q : Nat) : (s.beginExecution r).profile q = s.profile q := rfl
@[simp] theorem beginExecution_isRunning (s : State) (r : Option Response) : (s.beginExecution r).isRunning = s.isRunning := rfl

/-! `setNotices` -/

@[simp] theorem setNotices_pending (s : State) (a b : List Notice) : (s.setNotices a b).pending = s.pending := rfl
@[simp] theorem setNotices_now (s : State) (a b : List Notice) : (s.setNotices a b).now = s.now := rfl
@[simp] theorem setNotices_choices (s : State) (a b : List Notice) : (s.setNotices a b).choices = s.choices := rfl
@[simp] theorem setNotices_inReset (s : State) (a b : List Notice) : (s.setNotices a b).inReset = s.inReset := rfl
@[simp] theorem setNotices_lastReset (s : State) (a b : List Notice) : (s.setNotices a b).lastReset = s.lastReset := rfl
@[simp] theorem setNotices_resetAt (s : State) (a b : List Notice) : (s.setNotices a b).resetAt = s.resetAt := rfl
@[simp] theorem setNotices_policy (s : State) (a b : List Notice) : (s.setNotices a b).policy = s.policy := rfl
@[simp] theorem setNotices_records (s : State) (a b : List Notice) : (s.setNotices a b).records = s.records := rfl
@[simp] theorem setNotices_governor (s : State) (a b : List Notice) : (s.setNotices a b).governor = s.governor := rfl
@[simp] theorem setNotices_profiles (s : State) (a b : List Notice) : (s.setNotices a b).profiles = s.profiles := rfl
@[simp] theorem setNotices_link (s : State) (a b : List Notice) : (s.setNotices a b).link = s.link := rfl
@[simp] theorem setNotices_raise_queue (s : State) (a b : List Notice) : (s.setNotices a b).raise.queue = s.raise.queue := rfl
@[simp] theorem setNotices_raise_tickets (s : State) (a b : List Notice) : (s.setNotices a b).raise.tickets = s.raise.tickets := rfl
@[simp] theorem setNotices_raise_riseClaimed (s : State) (a b : List Notice) : (s.setNotices a b).raise.riseClaimed = s.raise.riseClaimed := rfl
@[simp] theorem setNotices_raise_nextSeq (s : State) (a b : List Notice) : (s.setNotices a b).raise.nextSeq = s.raise.nextSeq := rfl
@[simp] theorem setNotices_raise_holdLine (s : State) (a b : List Notice) : (s.setNotices a b).raise.holdLine = s.raise.holdLine := rfl
@[simp] theorem setNotices_raise_holdTimer (s : State) (a b : List Notice) : (s.setNotices a b).raise.holdTimer = s.raise.holdTimer := rfl
@[simp] theorem setNotices_raise_holdFiltered (s : State) (a b : List Notice) : (s.setNotices a b).raise.holdFiltered = s.raise.holdFiltered := rfl
@[simp] theorem setNotices_raise_holdFlag (s : State) (a b : List Notice) : (s.setNotices a b).raise.holdFlag = s.raise.holdFlag := rfl
@[simp] theorem setNotices_raise_effHold (s : State) (a b : List Notice) : (s.setNotices a b).raise.effHold = s.raise.effHold := rfl
@[simp] theorem setNotices_raise_notices (s : State) (a b : List Notice) : (s.setNotices a b).raise.notices = a := rfl
@[simp] theorem setNotices_shade (s : State) (a b : List Notice) : (s.setNotices a b).shade = s.shade := rfl
@[simp] theorem setNotices_lower_phases (s : State) (a b : List Notice) : (s.setNotices a b).lower.phases = s.lower.phases := rfl
@[simp] theorem setNotices_lower_waitList (s : State) (a b : List Notice) : (s.setNotices a b).lower.waitList = s.lower.waitList := rfl
@[simp] theorem setNotices_lower_fallClaimed (s : State) (a b : List Notice) : (s.setNotices a b).lower.fallClaimed = s.lower.fallClaimed := rfl
@[simp] theorem setNotices_lower_nextSeq (s : State) (a b : List Notice) : (s.setNotices a b).lower.nextSeq = s.lower.nextSeq := rfl
@[simp] theorem setNotices_lower_notices (s : State) (a b : List Notice) : (s.setNotices a b).lower.notices = b := rfl
@[simp] theorem setNotices_line (s : State) (a b : List Notice) : (s.setNotices a b).line = s.line := rfl
@[simp] theorem setNotices_port (s : State) (a b : List Notice) : (s.setNotices a b).port = s.port := rfl
@[simp] theorem setNotices_record (s : State) (a b : List Notice) (m : Nat) : (s.setNotices a b).record m = s.record m := rfl
@[simp] theorem setNotices_tx (s : State) (a b : List Notice) (m : Nat) : (s.setNotices a b).tx m = s.tx m := rfl
@[simp] theorem setNotices_zone (s : State) (a b : List Notice) (y : Nat) : (s.setNotices a b).zone y = s.zone y := rfl
@[simp] theorem setNotices_sensor (s : State) (a b : List Notice) (j : Nat) : (s.setNotices a b).sensor j = s.sensor j := rfl
@[simp] theorem setNotices_phase (s : State) (a b : List Notice) (y : Nat) : (s.setNotices a b).phase y = s.phase y := rfl
@[simp] theorem setNotices_ticket (s : State) (a b : List Notice) (j : Nat) : (s.setNotices a b).ticket j = s.ticket j := rfl
@[simp] theorem setNotices_part (s : State) (a b : List Notice) (m : Nat) : (s.setNotices a b).part m = s.part m := rfl
@[simp] theorem setNotices_lastShare (s : State) (a b : List Notice) (m : Nat) : (s.setNotices a b).lastShare m = s.lastShare m := rfl
@[simp] theorem setNotices_profile (s : State) (a b : List Notice) (q : Nat) : (s.setNotices a b).profile q = s.profile q := rfl
@[simp] theorem setNotices_isRunning (s : State) (a b : List Notice) : (s.setNotices a b).isRunning = s.isRunning := rfl

/-! `giveNotices` -/

@[simp] theorem giveNotices_pending (s : State) (xs : List Notice) : (s.giveNotices xs).pending = s.pending := rfl
@[simp] theorem giveNotices_now (s : State) (xs : List Notice) : (s.giveNotices xs).now = s.now := rfl
@[simp] theorem giveNotices_choices (s : State) (xs : List Notice) : (s.giveNotices xs).choices = s.choices := rfl
@[simp] theorem giveNotices_inReset (s : State) (xs : List Notice) : (s.giveNotices xs).inReset = s.inReset := rfl
@[simp] theorem giveNotices_lastReset (s : State) (xs : List Notice) : (s.giveNotices xs).lastReset = s.lastReset := rfl
@[simp] theorem giveNotices_resetAt (s : State) (xs : List Notice) : (s.giveNotices xs).resetAt = s.resetAt := rfl
@[simp] theorem giveNotices_policy (s : State) (xs : List Notice) : (s.giveNotices xs).policy = s.policy := rfl
@[simp] theorem giveNotices_records (s : State) (xs : List Notice) : (s.giveNotices xs).records = s.records := rfl
@[simp] theorem giveNotices_governor (s : State) (xs : List Notice) : (s.giveNotices xs).governor = s.governor := rfl
@[simp] theorem giveNotices_profiles (s : State) (xs : List Notice) : (s.giveNotices xs).profiles = s.profiles := rfl
@[simp] theorem giveNotices_link (s : State) (xs : List Notice) : (s.giveNotices xs).link = s.link := rfl
@[simp] theorem giveNotices_raise_queue (s : State) (xs : List Notice) : (s.giveNotices xs).raise.queue = s.raise.queue := rfl
@[simp] theorem giveNotices_raise_tickets (s : State) (xs : List Notice) : (s.giveNotices xs).raise.tickets = s.raise.tickets := rfl
@[simp] theorem giveNotices_raise_riseClaimed (s : State) (xs : List Notice) : (s.giveNotices xs).raise.riseClaimed = s.raise.riseClaimed := rfl
@[simp] theorem giveNotices_raise_nextSeq (s : State) (xs : List Notice) : (s.giveNotices xs).raise.nextSeq = s.raise.nextSeq := rfl
@[simp] theorem giveNotices_raise_holdLine (s : State) (xs : List Notice) : (s.giveNotices xs).raise.holdLine = s.raise.holdLine := rfl
@[simp] theorem giveNotices_raise_holdTimer (s : State) (xs : List Notice) : (s.giveNotices xs).raise.holdTimer = s.raise.holdTimer := rfl
@[simp] theorem giveNotices_raise_holdFiltered (s : State) (xs : List Notice) : (s.giveNotices xs).raise.holdFiltered = s.raise.holdFiltered := rfl
@[simp] theorem giveNotices_raise_holdFlag (s : State) (xs : List Notice) : (s.giveNotices xs).raise.holdFlag = s.raise.holdFlag := rfl
@[simp] theorem giveNotices_raise_effHold (s : State) (xs : List Notice) : (s.giveNotices xs).raise.effHold = s.raise.effHold := rfl
@[simp] theorem giveNotices_raise_notices (s : State) (xs : List Notice) : (s.giveNotices xs).raise.notices = s.raise.notices ++ xs.filter Notice.forRaise := rfl
@[simp] theorem giveNotices_shade (s : State) (xs : List Notice) : (s.giveNotices xs).shade = s.shade := rfl
@[simp] theorem giveNotices_lower_phases (s : State) (xs : List Notice) : (s.giveNotices xs).lower.phases = s.lower.phases := rfl
@[simp] theorem giveNotices_lower_waitList (s : State) (xs : List Notice) : (s.giveNotices xs).lower.waitList = s.lower.waitList := rfl
@[simp] theorem giveNotices_lower_fallClaimed (s : State) (xs : List Notice) : (s.giveNotices xs).lower.fallClaimed = s.lower.fallClaimed := rfl
@[simp] theorem giveNotices_lower_nextSeq (s : State) (xs : List Notice) : (s.giveNotices xs).lower.nextSeq = s.lower.nextSeq := rfl
@[simp] theorem giveNotices_lower_notices (s : State) (xs : List Notice) : (s.giveNotices xs).lower.notices = s.lower.notices ++ xs := rfl
@[simp] theorem giveNotices_line (s : State) (xs : List Notice) : (s.giveNotices xs).line = s.line := rfl
@[simp] theorem giveNotices_port (s : State) (xs : List Notice) : (s.giveNotices xs).port = s.port := rfl
@[simp] theorem giveNotices_record (s : State) (xs : List Notice) (m : Nat) : (s.giveNotices xs).record m = s.record m := rfl
@[simp] theorem giveNotices_tx (s : State) (xs : List Notice) (m : Nat) : (s.giveNotices xs).tx m = s.tx m := rfl
@[simp] theorem giveNotices_zone (s : State) (xs : List Notice) (y : Nat) : (s.giveNotices xs).zone y = s.zone y := rfl
@[simp] theorem giveNotices_sensor (s : State) (xs : List Notice) (j : Nat) : (s.giveNotices xs).sensor j = s.sensor j := rfl
@[simp] theorem giveNotices_phase (s : State) (xs : List Notice) (y : Nat) : (s.giveNotices xs).phase y = s.phase y := rfl
@[simp] theorem giveNotices_ticket (s : State) (xs : List Notice) (j : Nat) : (s.giveNotices xs).ticket j = s.ticket j := rfl
@[simp] theorem giveNotices_part (s : State) (xs : List Notice) (m : Nat) : (s.giveNotices xs).part m = s.part m := rfl
@[simp] theorem giveNotices_lastShare (s : State) (xs : List Notice) (m : Nat) : (s.giveNotices xs).lastShare m = s.lastShare m := rfl
@[simp] theorem giveNotices_profile (s : State) (xs : List Notice) (q : Nat) : (s.giveNotices xs).profile q = s.profile q := rfl
@[simp] theorem giveNotices_isRunning (s : State) (xs : List Notice) : (s.giveNotices xs).isRunning = s.isRunning := rfl

end Sys2Proof.Machine.State
end

