-- ==== Sys2Proof/Laws/Tables.lean ====
section
/-! SUPPORT. Reading a table after writing one of its places, and the tables built from a function. -/

namespace Sys2Proof

theorem getElem?_tabulate {α : Type} (n : Nat) (f : Nat → α) (i : Nat) :
    (tabulate n f)[i]? = if i < n then some (f i) else none := by
  simp [tabulate, Vector.getElem?_mk]; grind

namespace Machine

theorem look_place {α : Type} {n : Nat} (v : Vector α n) (i j : Nat) (x d : α) :
    look (place v i x) j d = if i = j ∧ i < n then x else look v j d := by
  simp only [look, place, Vector.getElem?_setIfInBounds]
  by_cases hij : i = j
  · subst hij
    by_cases hi : i < n
    · simp [hi]
    · simp [hi]
  · simp [hij]

theorem look_tabulate {α : Type} (n : Nat) (f : Nat → α) (i : Nat) (d : α) :
    look (tabulate n f) i d = if i < n then f i else d := by
  simp only [look, getElem?_tabulate]; split <;> rfl

theorem look_replicate {α : Type} (n : Nat) (x d : α) (i : Nat) :
    look (Vector.replicate n x) i d = if i < n then x else d := by
  simp only [look, Vector.getElem?_replicate]; split <;> rfl

namespace State

theorem record_setRecord (s : State) (n m : Nat) (r : UnitRecord) :
    (s.setRecord n r).record m = if n = m ∧ n < 64 then r else s.record m := look_place ..

theorem tx_setTx (s : State) (n m : Nat) (t : SlotTx) :
    (s.setTx n t).tx m = if n = m ∧ n < 64 then t else s.tx m := look_place ..

theorem zone_setZone (s : State) (z y : Nat) (x : Zone) :
    (s.setZone z x).zone y = if z = y ∧ z < 16 then x else s.zone y := look_place ..

theorem sensor_setSensor (s : State) (i j : Nat) (x : Sensor) :
    (s.setSensor i x).sensor j = if i = j ∧ i < 16 then x else s.sensor j := look_place ..

theorem phase_setPhase (s : State) (z y : Nat) (p : Phase) :
    (s.setPhase z p).phase y = if z = y ∧ z < 16 then p else s.phase y := look_place ..

theorem ticket_setTicket (s : State) (k j : Nat) (t : Option Ticket) :
    (s.setTicket k t).ticket j = if k = j ∧ k < 16 then t else s.ticket j := look_place ..

theorem part_setPart (s : State) (n m : Nat) (p : Option Nat) :
    (s.setPart n p).part m = if n = m ∧ n < 64 then p else s.part m := look_place ..

theorem lastShare_setLastShare (s : State) (n m : Nat) (x : Option Int) :
    (s.setLastShare n x).lastShare m = if n = m ∧ n < 64 then x else s.lastShare m := look_place ..

/-- A push asked for keeps the time it arose; one that is not pending arises now (R50). -/
theorem tx_requestPush (s : State) (n m : Nat) : (s.requestPush n).tx m =
    if n = m ∧ n < 64 then { s.tx n with push := (s.tx n).push <|> some s.now } else s.tx m := tx_setTx ..

/-- A push that has lapsed is not pending, so that one asked for afterwards arises anew (R50, R63). -/
theorem tx_lapsePush (s : State) (n m : Nat) : (s.lapsePush n).tx m =
    if n = m ∧ n < 64 then { s.tx n with push := none } else s.tx m := tx_setTx ..

theorem tx_lapseReasons (s : State) (n m : Nat) : (s.lapseReasons n).tx m =
    if n = m ∧ n < 64 then { s.tx n with push := none, affirmDue := none } else s.tx m := tx_setTx ..

theorem le_foldl_max (l : List Nat) (a : Nat) : a ≤ l.foldl max a := by
  induction l generalizing a with
  | nil => exact Nat.le_refl a
  | cons b l ih => exact Nat.le_trans (Nat.le_max_left a b) (ih (max a b))

theorem le_foldl_max_of_mem {l : List Nat} {x : Nat} (a : Nat) (h : x ∈ l) : x ≤ l.foldl max a := by
  induction l generalizing a with
  | nil => cases h
  | cons b l ih =>
    rcases List.mem_cons.mp h with rfl | h
    · exact Nat.le_trans (Nat.le_max_right a x) (le_foldl_max l _)
    · exact ih _ h

/-- A ZONE ENVELOPE handed in now stands behind every pending one of its zone and moment, and of the other zones too where
claims have entry times of their own (R52, R128). -/
theorem order_lt_orderOf {s : State} {e : ZoneEnvTx} {apart : Bool} {z : Nat} (h : e ∈ s.link.zoneEnvs)
    (ht : e.entry = s.now) (hz : e.zone = z ∨ apart = true) : e.order < s.orderOf apart z :=
  le_foldl_max_of_mem 0 (List.mem_map.mpr ⟨e, List.mem_filter.mpr ⟨h, by simp [ht, hz]⟩, rfl⟩)

/-- A slot above 63 holds a VACANT record. -/
theorem record_of_le (s : State) {n : Nat} (h : 64 ≤ n) : s.record n = .vacant := by
  simp only [record, look]; rw [Vector.getElem?_eq_none (by omega)]; rfl

/-- A zone number above 15 is IDLE. -/
theorem phase_of_le (s : State) {z : Nat} (h : 16 ≤ z) : s.phase z = .idle := by
  simp only [phase, look]; rw [Vector.getElem?_eq_none (by omega)]; rfl

/-- A ticket number above 15 is free. -/
theorem ticket_of_le (s : State) {k : Nat} (h : 16 ≤ k) : s.ticket k = none := by
  simp only [ticket, look]; rw [Vector.getElem?_eq_none (by omega)]; rfl

/-- A zone number above 15 is CLEAR. -/
theorem zone_of_le (s : State) {z : Nat} (h : 16 ≤ z) : s.zone z = .initial := by
  simp only [zone, look]; rw [Vector.getElem?_eq_none (by omega)]; rfl

/-- What `settle` leaves pending for a slot. -/
theorem tx_settle (s : State) (n : Nat) :
    s.settle.tx n = if n < 64 then s.settleSlot s.sweepPosition n else .empty := look_tabulate ..

end State
end Machine
end Sys2Proof
end

