-- ==== Sys2Proof/Laws/Frame.lean ====
section
/-! SUPPORT. What the work of the blocks leaves as it was: `Kept` for every operation that follows from one event inside
the blocks, `StageKept` for the operations of the two allocators and the Envelope Stager. One lemma for each shared
operation. -/

namespace Sys2Proof.Machine

/-- What no operation of the blocks changes: time, settings, the governor, the Shade Tracker, the link's transaction and
sweep, the hold, the notices that wait, the plant limits and the line, the port but for its causes; a cause set stays set, and ATTN stays as R183
gives it. -/
structure Kept (s t : State) : Prop where
  pending : t.pending = s.pending
  now : t.now = s.now
  choices : t.choices = s.choices
  inReset : t.inReset = s.inReset
  lastReset : t.lastReset = s.lastReset
  resetAt : t.resetAt = s.resetAt
  policy : t.policy = s.policy
  governor : t.governor = s.governor
  profiles : t.profiles = s.profiles
  shade : t.shade = s.shade
  linkSweep : t.link.sweep = s.link.sweep
  linkServed : t.link.served = s.link.served
  linkTxn : t.link.txn = s.link.txn
  linkRefuse : t.link.refuse = s.link.refuse
  linkRecallTx : t.link.recallTx = s.link.recallTx
  linkJoinWindow : t.link.joinWindow = s.link.joinWindow
  raiseHoldLine : t.raise.holdLine = s.raise.holdLine
  raiseHoldTimer : t.raise.holdTimer = s.raise.holdTimer
  raiseHoldFiltered : t.raise.holdFiltered = s.raise.holdFiltered
  raiseHoldFlag : t.raise.holdFlag = s.raise.holdFlag
  raiseEffHold : t.raise.effHold = s.raise.effHold
  raiseNotices : t.raise.notices = s.raise.notices
  lowerNotices : t.lower.notices = s.lower.notices
  lineLup : t.line.lup = s.line.lup
  lineLdown : t.line.ldown = s.line.ldown
  linePl : t.line.pl = s.line.pl
  lineTimer : t.line.timer = s.line.timer
  lineCover : t.line.cover = s.line.cover
  lineGiven : t.line.given = s.line.given
  lineEpisode : t.line.episode = s.line.episode
  lineFallBreaches : t.line.fallBreaches = s.line.fallBreaches
  lineRiseBreaches : t.line.riseBreaches = s.line.riseBreaches
  portCsLow : t.port.csLow = s.port.csLow
  portSck : t.port.sck = s.port.sck
  portReceiver : t.port.receiver = s.port.receiver
  portExecution : t.port.execution = s.port.execution
  portPending : t.port.pending = s.port.pending
  portMask : t.port.mask = s.port.mask
  portLock : t.port.lock = s.port.lock
  causes : s.port.causes &&& t.port.causes = s.port.causes
  attn : s.port.attn = attnLevel s.port.causes s.port.mask → t.port.attn = attnLevel t.port.causes t.port.mask

/-- Flags that stand in a set stand in a larger one. -/
theorem flags_trans {a b c : BitVec 12} (h : a &&& b = a) (g : b &&& c = b) : a &&& c = a := by
  rw [← h, BitVec.and_assoc, g]

/-- A flag added to a set leaves those that stand in it. -/
theorem flags_or (a b : BitVec 12) : a &&& (a ||| b) = a := by
  ext i
  simp only [BitVec.getElem_and, BitVec.getElem_or]
  cases a[i] <;> simp

namespace Kept

theorem refl (s : State) : Kept s s := by constructor <;> first | rfl | exact id | exact BitVec.and_self

theorem trans {s t u : State} (h : Kept s t) (g : Kept t u) : Kept s u where
  pending := g.pending.trans h.pending
  now := g.now.trans h.now
  choices := g.choices.trans h.choices
  inReset := g.inReset.trans h.inReset
  lastReset := g.lastReset.trans h.lastReset
  resetAt := g.resetAt.trans h.resetAt
  policy := g.policy.trans h.policy
  governor := g.governor.trans h.governor
  profiles := g.profiles.trans h.profiles
  shade := g.shade.trans h.shade
  linkSweep := g.linkSweep.trans h.linkSweep
  linkServed := g.linkServed.trans h.linkServed
  linkTxn := g.linkTxn.trans h.linkTxn
  linkRefuse := g.linkRefuse.trans h.linkRefuse
  linkRecallTx := g.linkRecallTx.trans h.linkRecallTx
  linkJoinWindow := g.linkJoinWindow.trans h.linkJoinWindow
  raiseHoldLine := g.raiseHoldLine.trans h.raiseHoldLine
  raiseHoldTimer := g.raiseHoldTimer.trans h.raiseHoldTimer
  raiseHoldFiltered := g.raiseHoldFiltered.trans h.raiseHoldFiltered
  raiseHoldFlag := g.raiseHoldFlag.trans h.raiseHoldFlag
  raiseEffHold := g.raiseEffHold.trans h.raiseEffHold
  raiseNotices := g.raiseNotices.trans h.raiseNotices
  lowerNotices := g.lowerNotices.trans h.lowerNotices
  lineLup := g.lineLup.trans h.lineLup
  lineLdown := g.lineLdown.trans h.lineLdown
  linePl := g.linePl.trans h.linePl
  lineTimer := g.lineTimer.trans h.lineTimer
  lineCover := g.lineCover.trans h.lineCover
  lineGiven := g.lineGiven.trans h.lineGiven
  lineEpisode := g.lineEpisode.trans h.lineEpisode
  lineFallBreaches := g.lineFallBreaches.trans h.lineFallBreaches
  lineRiseBreaches := g.lineRiseBreaches.trans h.lineRiseBreaches
  portCsLow := g.portCsLow.trans h.portCsLow
  portSck := g.portSck.trans h.portSck
  portReceiver := g.portReceiver.trans h.portReceiver
  portExecution := g.portExecution.trans h.portExecution
  portPending := g.portPending.trans h.portPending
  portMask := g.portMask.trans h.portMask
  portLock := g.portLock.trans h.portLock
  causes := flags_trans h.causes g.causes
  attn := fun x => g.attn (h.attn x)

end Kept

/-- What the allocators and the Envelope Stager leave as well: the Line Controller and the port whole, of each record
everything but its staged envelope, and the record and the transmissions of a slot that holds no BOUND inverter. -/
structure StageKept (s t : State) : Prop extends Kept s t where
  line : t.line = s.line
  port : t.port = s.port
  record : ∀ n, t.record n = { s.record n with staged := (t.record n).staged }
  other : ∀ n, (s.record n).boundInverter = false → t.record n = s.record n ∧ t.tx n = s.tx n

namespace StageKept

theorem refl (s : State) : StageKept s s := ⟨Kept.refl s, rfl, rfl, fun _ => rfl, fun _ _ => ⟨rfl, rfl⟩⟩

theorem boundInverter {s t : State} (h : StageKept s t) (n : Nat) :
    (t.record n).boundInverter = (s.record n).boundInverter := by rw [h.record n]; rfl

theorem trans {s t u : State} (h : StageKept s t) (g : StageKept t u) : StageKept s u where
  toKept := h.toKept.trans g.toKept
  line := g.line.trans h.line
  port := g.port.trans h.port
  record n := by rw [g.record n, h.record n]
  other n hn := by
    obtain ⟨g1, g2⟩ := g.other n (by rw [h.boundInverter, hn])
    obtain ⟨h1, h2⟩ := h.other n hn
    exact ⟨g1.trans h1, g2.trans h2⟩

end StageKept

/-! ### Primitive updates -/

/-- A state that differs from another only in the ZONE ENVELOPE frames, the raise queue, the tickets and the lowering
state. -/
theorem stageKept_of (s t : State)
    (h : t = { s with
      link := { s.link with zoneEnvs := t.link.zoneEnvs }
      raise := { s.raise with queue := t.raise.queue, tickets := t.raise.tickets,
                              riseClaimed := t.raise.riseClaimed, nextSeq := t.raise.nextSeq }
      lower := { t.lower with notices := s.lower.notices } }) : StageKept s t := by
  rw [h]
  refine ⟨?_, rfl, rfl, fun _ => rfl, fun _ _ => ⟨rfl, rfl⟩⟩
  constructor <;> first | rfl | exact id | exact BitVec.and_self

theorem stageKept_setTicket (s : State) (k : Nat) (t : Option Ticket) : StageKept s (s.setTicket k t) :=
  stageKept_of _ _ rfl

theorem stageKept_removeEntry (s : State) (n : Nat) : StageKept s (s.removeEntry n) := stageKept_of _ _ rfl

theorem stageKept_setPhase (s : State) (z : Nat) (p : Phase) : StageKept s (s.setPhase z p) := stageKept_of _ _ rfl

theorem stageKept_leaveWait (s : State) (z : Nat) : StageKept s (s.leaveWait z) := stageKept_of _ _ rfl

theorem stageKept_enterWait (s : State) (z : Nat) : StageKept s (s.enterWait z) := stageKept_of _ _ rfl

theorem stageKept_setRaise (s : State) (q : List QueueEntry) (v : Vector (Option Ticket) 16) (c n : Nat) :
    StageKept s { s with raise := { s.raise with queue := q, tickets := v, riseClaimed := c, nextSeq := n } } :=
  stageKept_of _ _ rfl

theorem stageKept_setLower (s : State) (x : Lower) (h : x.notices = s.lower.notices := by rfl) :
    StageKept s { s with lower := x } := stageKept_of _ _ (by rw [← h])

theorem kept_setRecord (s : State) (n : Nat) (r : UnitRecord) : Kept s (s.setRecord n r) := by
  constructor <;> first | rfl | exact id | exact BitVec.and_self

theorem kept_setPart (s : State) (n : Nat) (p : Option Nat) : Kept s (s.setPart n p) := by
  constructor <;> first | rfl | exact id | exact BitVec.and_self

theorem kept_setLastShare (s : State) (n : Nat) (x : Option Int) : Kept s (s.setLastShare n x) := by
  constructor <;> first | rfl | exact id | exact BitVec.and_self

theorem kept_raiseCause (s : State) (c : Cause) : Kept s (s.raiseCause c) := by
  constructor <;> first | rfl | exact fun _ => rfl | exact flags_or ..

theorem kept_setTx (s : State) (n : Nat) (t : SlotTx) : Kept s (s.setTx n t) := by
  constructor <;> first | rfl | exact id | exact BitVec.and_self

/-- A fold of steps that each keep something keeps it. -/
theorem foldl_rel {α : Type} {R : State → State → Prop} (hr : ∀ s, R s s)
    (ht : ∀ {s t u}, R s t → R t u → R s u) {f : State → α → State} (hf : ∀ s a, R s (f s a)) (l : List α) (s : State) :
    R s (l.foldl f s) := by
  induction l generalizing s with
  | nil => exact hr s
  | cons a l ih => exact ht (hf s a) (ih _)

theorem stageKept_foldl {α : Type} {f : State → α → State} (hf : ∀ s a, StageKept s (f s a)) (l : List α) (s : State) :
    StageKept s (l.foldl f s) := foldl_rel StageKept.refl StageKept.trans hf l s

theorem kept_foldl {α : Type} {f : State → α → State} (hf : ∀ s a, Kept s (f s a)) (l : List α) (s : State) :
    Kept s (l.foldl f s) := foldl_rel Kept.refl Kept.trans hf l s

/-! ### The Envelope Stager -/

theorem kept_requestPush (s : State) (n : Nat) : Kept s (s.requestPush n) := kept_setTx ..

theorem kept_lapsePush (s : State) (n : Nat) : Kept s (s.lapsePush n) := kept_setTx ..

theorem kept_lapseReasons (s : State) (n : Nat) : Kept s (s.lapseReasons n) := kept_setTx ..

/-- A claim of any block changes at most a staged envelope and the POLL of the slot. -/
theorem kept_stageClaim (s : State) (source : ClaimFrom) (n c v : Nat) : Kept s (s.stageClaim source n c v) := by
  simp only [State.stageClaim]
  split
  · exact .refl s
  · split
    · exact kept_setRecord ..
    · exact (kept_setRecord ..).trans (kept_requestPush ..)

theorem stageKept_stageClaim (s : State) {source : ClaimFrom} (hs : source ≠ .roster) (n c v : Nat) :
    StageKept s (s.stageClaim source n c v) := by
  refine ⟨kept_stageClaim .., ?_, ?_, fun m => ?_, fun m hm => ?_⟩ <;> simp only [State.stageClaim]
  · split
    · rfl
    · split <;> rfl
  · split
    · rfl
    · split <;> rfl
  · split
    · rfl
    · split <;> simp only [State.requestPush, State.setTx_record, State.record_setRecord] <;> split <;> simp_all
  · split
    · exact ⟨rfl, rfl⟩
    · next h =>
      have hn : n ≠ m := by
        rintro rfl
        simp only [claimTaken, UnitRecord.boundInverter] at h hm
        grind
      split <;> simp [State.requestPush, State.record_setRecord, State.tx_setTx, hn]

/-! ### The Raise Allocator -/

theorem stageKept_grant (s : State) (e : QueueEntry) (k rate : Nat) : StageKept s (s.grant e k rate) :=
  (((stageKept_setTicket s k _).trans (stageKept_setRaise ..)).trans (stageKept_removeEntry ..)).trans
    (stageKept_stageClaim _ (by decide) ..)

theorem stageKept_grantLoop (k : Nat) (s : State) : StageKept s (State.grantLoop k s) := by
  induction k generalizing s with
  | zero => exact .refl s
  | succ k ih =>
    simp only [State.grantLoop]
    split
    · exact .refl s
    · split
      · exact (stageKept_grant ..).trans (ih _)
      · exact .refl s

theorem stageKept_grantEvaluation (s : State) : StageKept s s.grantEvaluation := by
  simp only [State.grantEvaluation]; split
  · exact stageKept_grantLoop ..
  · exact .refl s

theorem stageKept_evaluateIf (b : Bool) (s : State) : StageKept s (s.evaluateIf b) := by
  simp only [State.evaluateIf]; split
  · exact stageKept_grantEvaluation s
  · exact .refl s

theorem stageKept_endTicket (k : Nat) (s : State) : StageKept s (s.endTicket k) := by
  simp only [State.endTicket]; split
  · exact .refl s
  · exact (stageKept_setTicket s k none).trans (stageKept_setRaise ..)

theorem stageKept_cutTicket (k : Nat) (s : State) : StageKept s (s.cutTicket k) := by
  simp only [State.cutTicket]; split
  · exact .refl s
  · exact (stageKept_stageClaim _ (by decide) ..).trans (stageKept_endTicket ..)

theorem stageKept_cutSlot (n : Nat) (s : State) : StageKept s (s.cutSlot n) := by
  simp only [State.cutSlot]; split
  · exact .refl s
  · exact stageKept_cutTicket ..

theorem stageKept_endSlotTicket (n : Nat) (s : State) : StageKept s (s.endSlotTicket n) := by
  simp only [State.endSlotTicket]; split
  · exact .refl s
  · exact stageKept_endTicket ..

theorem stageKept_cutAndRemove (n : Nat) (s : State) : StageKept s (s.cutAndRemove n) :=
  ((stageKept_cutSlot n s).trans (stageKept_removeEntry ..)).trans (stageKept_evaluateIf ..)

theorem stageKept_dropEntry (n : Nat) (s : State) : StageKept s (s.dropEntry n) :=
  (stageKept_removeEntry s n).trans (stageKept_evaluateIf ..)

theorem stageKept_raiseZoneLeftClear (z : Nat) (s : State) : StageKept s (s.raiseZoneLeftClear z) :=
  (stageKept_foldl (fun t n => (stageKept_cutSlot n t).trans (stageKept_removeEntry ..)) _ s).trans
    (stageKept_grantEvaluation _)

theorem stageKept_cutToLup (k : Nat) (s : State) : StageKept s (State.cutToLup k s) := by
  induction k generalizing s with
  | zero => exact .refl s
  | succ k ih =>
    simp only [State.cutToLup]
    split
    · exact .refl s
    · split
      · exact .refl s
      · exact (stageKept_cutTicket ..).trans (ih _)

theorem stageKept_lupChanged (old : Nat) (s : State) : StageKept s (s.lupChanged old) := by
  simp only [State.lupChanged]
  split
  · split
    · exact (stageKept_cutToLup ..).trans (stageKept_grantEvaluation _)
    · exact .refl s
  · split
    · exact stageKept_grantEvaluation s
    · exact .refl s

theorem stageKept_raiseRecallBegins (s : State) : StageKept s s.raiseRecallBegins := stageKept_of _ _ rfl

theorem stageKept_completionTest (n : Nat) (f : ReportFields) (s : State) : StageKept s (s.completionTest n f) := by
  simp only [State.completionTest]
  split
  · exact .refl s
  · split
    · exact .refl s
    · split
      · exact (stageKept_endTicket ..).trans (stageKept_grantEvaluation _)
      · exact .refl s

theorem stageKept_raiseTest (clamps : Bool) (n : Nat) (f : ReportFields) (s : State) :
    StageKept s (s.raiseTest clamps n f) := by
  simp only [State.raiseTest]
  split
  · split
    · exact stageKept_of _ _ rfl
    · exact stageKept_dropEntry n s
  · split
    · exact (stageKept_of _ _ rfl).trans (stageKept_grantEvaluation _)
    · exact .refl s

theorem stageKept_raiseReport (clamps : Bool) (n : Nat) (f : ReportFields) (s : State) :
    StageKept s (s.raiseReport clamps n f) := by
  simp only [State.raiseReport]; split
  · exact (stageKept_completionTest n f s).trans (stageKept_raiseTest clamps n f _)
  · exact .refl s

/-- A REPORT that meets the clamp test makes no raise request: it withdraws the entry of its record, and without one it
changes nothing (R70, R75). -/
theorem raiseTest_of_clamps (n : Nat) (f : ReportFields) (s : State) :
    s.raiseTest true n f = if s.queued n then s.dropEntry n else s := by
  simp [State.raiseTest, State.raiseTestMet, State.wantedOf]

/-! ### The Lowering Allocator -/

theorem stageKept_handFrames (apart : Bool) (z : Nat) (l : List (List Nat)) (s : State) :
    StageKept s (State.handFrames apart z l s) := by
  induction l generalizing s with
  | nil => exact .refl s
  | cons a l ih =>
    simp only [State.handFrames]
    exact (stageKept_of s _ rfl).trans (ih _)

theorem stageKept_handZoneEnvs (z : Nat) (l : List (List Nat)) (s : State) : StageKept s (State.handZoneEnvs z l s) :=
  stageKept_handFrames ..

theorem stageKept_requestClaim (z : Nat) (s : State) : StageKept s (s.requestClaim z) := by
  simp only [State.requestClaim]; split
  · exact (stageKept_setPhase ..).trans (stageKept_enterWait ..)
  · exact stageKept_setPhase ..

theorem stageKept_grantClaim (z : Nat) (ms : List Member) (rate : Nat) (s : State) :
    StageKept s (s.grantClaim z ms rate) :=
  ((((stageKept_setPhase s z _).trans (stageKept_leaveWait ..)).trans (stageKept_setLower ..)).trans
    (stageKept_foldl (fun t (u : ClaimUnit) => stageKept_stageClaim t (source := .lowering) (by decide) u.slot u.target u.rate) _ _)).trans
    (stageKept_handZoneEnvs ..)

theorem stageKept_claimLoop (k : Nat) (s : State) : StageKept s (State.claimLoop k s) := by
  induction k generalizing s with
  | zero => exact .refl s
  | succ k ih =>
    simp only [State.claimLoop]
    split
    · exact .refl s
    · split
      · exact ((stageKept_setPhase ..).trans (stageKept_leaveWait ..)).trans (ih _)
      · split
        · exact (stageKept_grantClaim ..).trans (ih _)
        · exact .refl s

theorem stageKept_claimEvaluation (s : State) : StageKept s s.claimEvaluation := by
  simp only [State.claimEvaluation]; split
  · exact stageKept_claimLoop ..
  · exact .refl s

theorem stageKept_timingZonesRequest (s : State) : StageKept s s.timingZonesRequest := by
  simp only [State.timingZonesRequest]; split
  · exact .refl s
  · exact (stageKept_foldl (fun t z => stageKept_requestClaim z t) _ s).trans (stageKept_claimEvaluation _)

theorem stageKept_enterTiming (z a : Nat) (s : State) : StageKept s (s.enterTiming z a) := stageKept_setPhase ..

theorem stageKept_loweringEnteredForecast (z a : Nat) (s : State) : StageKept s (s.loweringEnteredForecast z a) := by
  simp only [State.loweringEnteredForecast]
  split
  · split
    · exact stageKept_setPhase ..
    · split
      · exact (stageKept_requestClaim ..).trans (stageKept_claimEvaluation _)
      · exact stageKept_enterTiming ..
  · exact .refl s

theorem stageKept_loweringArrivalChanged (z a : Nat) (s : State) : StageKept s (s.loweringArrivalChanged z a) := by
  simp only [State.loweringArrivalChanged]
  split
  · split
    · exact (stageKept_requestClaim ..).trans (stageKept_claimEvaluation _)
    · exact stageKept_enterTiming ..
  · split
    · exact stageKept_enterWait ..
    · exact (stageKept_enterWait ..).trans (stageKept_claimEvaluation _)
  · exact .refl s

theorem stageKept_loweringEnteredShaded (z : Nat) (s : State) : StageKept s (s.loweringEnteredShaded z) := by
  simp only [State.loweringEnteredShaded]
  split
  · exact (stageKept_requestClaim ..).trans (stageKept_claimEvaluation _)
  · exact (stageKept_requestClaim ..).trans (stageKept_claimEvaluation _)
  · exact .refl s

theorem stageKept_loweringReturnedClear (z : Nat) (s : State) : StageKept s (s.loweringReturnedClear z) := by
  simp only [State.loweringReturnedClear]
  split
  · split
    · exact ((stageKept_setPhase ..).trans (stageKept_leaveWait ..)).trans (stageKept_claimEvaluation _)
    · exact (stageKept_setPhase ..).trans (stageKept_leaveWait ..)
  · exact ((stageKept_setPhase s z _).trans (stageKept_setLower ..)).trans (stageKept_claimEvaluation _)
  · exact stageKept_setPhase ..

theorem stageKept_loweringStart (z : Nat) (s : State) : StageKept s (s.loweringStart z) :=
  (stageKept_requestClaim z s).trans (stageKept_claimEvaluation _)

theorem stageKept_loweringPlannedEnd (z : Nat) (s : State) : StageKept s (s.loweringPlannedEnd z) := by
  simp only [State.loweringPlannedEnd]
  split
  · exact ((stageKept_setPhase s z _).trans (stageKept_setLower ..)).trans (stageKept_claimEvaluation _)
  · exact .refl s

theorem stageKept_loweringCoverChanged (c : CoverCond) (s : State) : StageKept s (s.loweringCoverChanged c) := by
  simp only [State.loweringCoverChanged]; split
  · exact stageKept_timingZonesRequest s
  · exact .refl s

theorem stageKept_cutUnit (u : ClaimUnit) (s : State) : StageKept s (s.cutUnit u) := by
  simp only [State.cutUnit]; split
  · exact .refl s
  · exact stageKept_stageClaim _ (by decide) ..

theorem stageKept_cutClaim (z : Nat) (s : State) : StageKept s (s.cutClaim z) := by
  simp only [State.cutClaim]
  split
  · exact ((stageKept_foldl (fun t (u : ClaimUnit) => stageKept_cutUnit u t) _ s).trans (stageKept_setLower ..)).trans
      (stageKept_requestClaim ..)
  · exact .refl s

theorem stageKept_cutToLdown (k : Nat) (s : State) : StageKept s (State.cutToLdown k s) := by
  induction k generalizing s with
  | zero => exact .refl s
  | succ k ih =>
    simp only [State.cutToLdown]
    split
    · exact .refl s
    · split
      · exact .refl s
      · exact (stageKept_cutClaim ..).trans (ih _)

theorem stageKept_ldownChanged (old : Nat) (s : State) : StageKept s (s.ldownChanged old) := by
  simp only [State.ldownChanged]
  split
  · split
    · exact (stageKept_cutToLdown ..).trans (stageKept_claimEvaluation _)
    · exact .refl s
  · split
    · exact stageKept_claimEvaluation s
    · exact .refl s

theorem stageKept_loweringRecallBegins (s : State) : StageKept s s.loweringRecallBegins := stageKept_setLower ..

theorem stageKept_resumeZone (z : Nat) (s : State) : StageKept s (s.resumeZone z) := by
  simp only [State.resumeZone]
  split
  · split
    · exact stageKept_requestClaim ..
    · split
      · exact stageKept_requestClaim ..
      · exact stageKept_enterTiming ..
    · exact .refl s
  · exact .refl s

theorem stageKept_loweringRunning (s : State) : StageKept s s.loweringRunning :=
  (stageKept_foldl (fun t z => stageKept_resumeZone z t) _ s).trans (stageKept_claimEvaluation _)

theorem stageKept_freeClaimUnits (n : Nat) (s : State) : StageKept s (s.freeClaimUnits n) := stageKept_setLower ..

/-! ### Notices -/

theorem stageKept_raiseTakes (x : Notice) (s : State) : StageKept s (s.raiseTakes x) := by
  cases x with
  | leftClear z a => exact stageKept_raiseZoneLeftClear z s
  | _ => exact .refl s

theorem stageKept_lowerTakes (x : Notice) (s : State) : StageKept s (s.lowerTakes x) := by
  cases x with
  | leftClear z a => exact stageKept_loweringEnteredForecast z a s
  | arrivalChanged z a => exact stageKept_loweringArrivalChanged z a s
  | enteredShaded z => exact stageKept_loweringEnteredShaded z s
  | returnedClear z b => exact stageKept_loweringReturnedClear z s

/-- What is kept between two states is kept whichever notices wait in both. -/
theorem StageKept.setNotices {s t : State} (h : StageKept s t) (a b : List Notice) :
    StageKept (s.setNotices a b) (t.setNotices a b) where
  toKept := { h.toKept with raiseNotices := rfl, lowerNotices := rfl }
  line := h.line
  port := h.port
  record := h.record
  other := h.other

theorem stageKept_takeRaiseNotice (s : State) :
    StageKept (s.setNotices s.raise.notices.tail s.lower.notices) s.takeRaiseNotice := by
  simp only [State.takeRaiseNotice]
  split
  · next h => rw [h, List.tail_nil, ← h]; exact .refl s
  · next x rest h => rw [h]; exact stageKept_raiseTakes x _

theorem stageKept_takeLowerNotice (s : State) :
    StageKept (s.setNotices s.raise.notices s.lower.notices.tail) s.takeLowerNotice := by
  simp only [State.takeLowerNotice]
  split
  · next h => rw [h, List.tail_nil, ← h]; exact .refl s
  · next x rest h => rw [h]; exact stageKept_lowerTakes x _

theorem stageKept_takeRaiseNotices (l : List Notice) (s : State) (h : s.raise.notices = l) :
    StageKept (s.setNotices [] s.lower.notices) (l.foldl (fun t _ => t.takeRaiseNotice) s) := by
  induction l generalizing s with
  | nil => rw [List.foldl_nil, ← h]; exact .refl s
  | cons x l ih =>
    have k := stageKept_takeRaiseNotice s
    have hn : s.takeRaiseNotice.lower.notices = s.lower.notices := k.lowerNotices
    have g := ih s.takeRaiseNotice (by rw [k.raiseNotices, h]; rfl)
    rw [hn] at g
    exact (k.setNotices [] s.lower.notices).trans g

theorem stageKept_takeLowerNotices (l : List Notice) (s : State) (h : s.lower.notices = l) :
    StageKept (s.setNotices s.raise.notices []) (l.foldl (fun t _ => t.takeLowerNotice) s) := by
  induction l generalizing s with
  | nil => rw [List.foldl_nil, ← h]; exact .refl s
  | cons x l ih =>
    have k := stageKept_takeLowerNotice s
    have hn : s.takeLowerNotice.raise.notices = s.raise.notices := k.raiseNotices
    have g := ih s.takeLowerNotice (by rw [k.lowerNotices, h]; rfl)
    rw [hn] at g
    exact (k.setNotices s.raise.notices []).trans g

/-- Taking every notice leaves none waiting, and beside them no more changed than the work of the allocators. -/
theorem stageKept_takeNotices (s : State) : StageKept (s.setNotices [] []) s.takeNotices := by
  have h := stageKept_takeRaiseNotices s.raise.notices s rfl
  have g := stageKept_takeLowerNotices _ (s.raise.notices.foldl (fun t _ => t.takeRaiseNotice) s) rfl
  have hn := h.raiseNotices
  exact (h.setNotices [] []).trans (by rw [hn] at g; exact g)

theorem takeNotices_of_none {s : State} (hr : s.raise.notices = []) (hl : s.lower.notices = []) : s.takeNotices = s := by
  simp only [State.takeNotices, hr, List.foldl_nil, hl]

/-! ### The Line Controller and the Unit Roster -/

theorem kept_orderCover (n : Nat) (x : Int) (s : State) : Kept s (s.orderCover n x) := kept_setTx ..

theorem kept_clipCover (n : Nat) (s : State) : Kept s (s.clipCover n) := by
  simp only [State.clipCover]; split
  · exact .refl s
  · exact kept_orderCover ..

theorem kept_orderShare (x : Nat × Int) (s : State) : Kept s (s.orderShare x) := by
  simp only [State.orderShare]; split
  · exact kept_orderCover ..
  · exact .refl s

theorem kept_workCondition (s : State) : Kept s s.workCondition := by
  simp only [State.workCondition]
  split
  · exact .refl s
  · refine Kept.trans (t := ({ s with line := { s.line with condition := s.conditionNow } } : State).raiseCause
      .coverCondition) ?_ (stageKept_loweringCoverChanged _ _).toKept
    constructor <;> first | rfl | exact fun _ => rfl | exact flags_or ..

theorem kept_workConditionIf (b : Bool) (s : State) : Kept s (s.workConditionIf b) := by
  simp only [State.workConditionIf]; split
  · exact kept_workCondition s
  · exact .refl s

theorem kept_renewLease (n : Nat) (s : State) : Kept s (s.renewLease n) := kept_setRecord ..

theorem kept_renewAffirm (n : Nat) (s : State) : Kept s (s.renewAffirm n) := kept_setRecord ..

theorem kept_dropCover (n : Nat) (s : State) : Kept s (s.dropCover n) := kept_setTx ..

theorem kept_dropTx (n : Nat) (s : State) : Kept s (s.dropTx n) := kept_setTx ..

theorem kept_queueAssign (n : Nat) (s : State) : Kept s (s.queueAssign n) := kept_setTx ..

theorem kept_queueAffirmCover (n : Nat) (s : State) : Kept s (s.queueAffirmCover n) := by
  simp only [State.queueAffirmCover]; split
  · exact .refl s
  · exact kept_orderCover ..

theorem kept_demote (n : Nat) (s : State) : Kept s (s.demote n) :=
  ((kept_setRecord s n _).trans (kept_raiseCause ..)).trans (stageKept_dropEntry ..).toKept

theorem kept_advanceLapses (n : Nat) (s : State) : Kept s (s.advanceLapses n) := by
  simp only [State.advanceLapses]; split
  · exact (kept_setRecord ..).trans (kept_demote ..)
  · exact kept_setRecord ..

theorem kept_advanceSlowRaises (n : Nat) (s : State) : Kept s (s.advanceSlowRaises n) := by
  simp only [State.advanceSlowRaises]; split
  · exact (kept_setRecord ..).trans (kept_demote ..)
  · exact kept_setRecord ..

theorem kept_advanceAckMismatches (n : Nat) (s : State) : Kept s (s.advanceAckMismatches n) := by
  simp only [State.advanceAckMismatches]; split
  · exact (kept_setRecord ..).trans (kept_raiseCause ..)
  · exact kept_setRecord ..

theorem kept_becomeVacant (n : Nat) (s : State) : Kept s (s.becomeVacant n) :=
  (((((((((stageKept_endSlotTicket n s).trans (stageKept_removeEntry ..)).toKept).trans (kept_setRecord ..)).trans
    (kept_dropTx ..)).trans (kept_setPart ..)).trans (kept_setLastShare ..)).trans
    (stageKept_freeClaimUnits ..).toKept).trans (kept_workConditionIf ..)).trans (stageKept_evaluateIf ..).toKept

theorem kept_leaveGoverned (n : Nat) (change : UnitRecord → UnitRecord) (after : State → State)
    (ha : ∀ t, Kept t (after t)) (s : State) : Kept s (s.leaveGoverned n change after) := by
  simp only [State.leaveGoverned]
  refine Kept.trans ?_ (stageKept_evaluateIf ..).toKept
  refine Kept.trans ?_ (kept_workConditionIf ..)
  refine Kept.trans ?_ (ha _)
  have h := ((((stageKept_endSlotTicket n s).trans (stageKept_removeEntry _ n)).toKept).trans (kept_setRecord _ n
    (change { s.record n with staged := none, affirm := none, lease := none, bindDeadline := none }))).trans
      (kept_lapseReasons _ n)
  split
  · exact (h.trans (kept_dropCover ..)).trans (kept_setLastShare ..)
  · exact h

theorem kept_affirmStorage (n : Nat) (s : State) : Kept s (s.affirmStorage n) := by
  simp only [State.affirmStorage]; split
  · exact (kept_queueAffirmCover ..).trans (kept_renewAffirm ..)
  · exact .refl s

theorem kept_enterLapsed (n : Nat) (counted : Bool) (s : State) : Kept s (s.enterLapsed n counted) := by
  refine kept_leaveGoverned _ _ _ (fun t => ?_) s
  dsimp only
  split
  · exact ((kept_affirmStorage ..).trans (kept_advanceLapses ..)).trans (kept_raiseCause ..)
  · exact kept_affirmStorage ..

theorem kept_enterDormant (n : Nat) (s : State) : Kept s (s.enterDormant n) :=
  kept_leaveGoverned _ _ _ (fun t => Kept.refl t) s

theorem kept_enterRetiring (n : Nat) (s : State) : Kept s (s.enterRetiring n) :=
  kept_leaveGoverned _ _ _ (fun _ => kept_setTx ..) s

theorem kept_enterRecalled (n : Nat) (s : State) : Kept s (s.enterRecalled n) :=
  kept_leaveGoverned _ _ _ (fun _ => (kept_dropTx ..)) s

theorem kept_enterBound (n : Nat) (s : State) : Kept s (s.enterBound n) :=
  ((kept_setRecord s n _).trans (kept_affirmStorage ..)).trans (kept_workConditionIf ..)

theorem kept_completeRetirement (n : Nat) (s : State) : Kept s (s.completeRetirement n) :=
  (kept_becomeVacant n s).trans (kept_raiseCause ..)

theorem kept_firstClaim (n : Nat) (s : State) : Kept s (s.firstClaim n) := kept_stageClaim ..

theorem kept_reportClaim (n : Nat) (s : State) : Kept s (s.reportClaim n) := by
  simp only [State.reportClaim]
  split
  · exact kept_stageClaim ..
  · split
    · exact kept_stageClaim ..
    · exact kept_firstClaim ..

theorem kept_recallRecord (n : Nat) (s : State) : Kept s (s.recallRecord n) := by
  simp only [State.recallRecord]
  split
  · exact kept_becomeVacant n s
  · exact kept_becomeVacant n s
  · exact kept_enterRecalled n s
  · exact kept_enterRecalled n s
  · exact kept_enterRecalled n s
  · exact .refl s
  · exact .refl s

theorem kept_freeRecalled (n : Nat) (s : State) : Kept s (s.freeRecalled n) := by
  simp only [State.freeRecalled]; split
  · exact kept_becomeVacant n s
  · exact .refl s

/-! ### A REPORT in the blocks -/

theorem kept_storeReport (n : Nat) (f : ReportFields) (s : State) : Kept s (s.storeReport n f) := kept_setRecord ..

theorem kept_reportFlags (n : Nat) (f : ReportFields) (s : State) : Kept s (s.reportFlags n f) := by
  simp only [State.reportFlags]
  split
  · exact kept_renewLease ..
  · split
    · exact kept_enterLapsed ..
    · split
      · exact kept_enterDormant ..
      · exact kept_renewLease ..
  · split
    · exact kept_enterLapsed ..
    · split
      · exact kept_renewLease ..
      · exact kept_enterBound ..
  · split
    · exact kept_enterBound ..
    · exact .refl s
  all_goals exact .refl s

theorem kept_acknowledge (n : Nat) (e : Envelope) (s : State) : Kept s (s.acknowledge n e) := by
  simp only [State.acknowledge]; split
  · exact ((kept_setRecord ..).trans (kept_lapsePush ..)).trans (kept_enterBound ..)
  · exact (kept_setRecord ..).trans (kept_lapsePush ..)

theorem kept_readBank (n : Nat) (f : ReportFields) (s : State) : Kept s (s.readBank n f) := by
  simp only [State.readBank]
  split
  · split
    · exact .refl s
    · split
      · split
        · exact kept_acknowledge ..
        · exact (kept_requestPush ..).trans (kept_advanceAckMismatches ..)
      · exact .refl s
  · exact .refl s

theorem stageKept_clampCut (n level : Nat) (s : State) : StageKept s (s.clampCut n level) := by
  simp only [State.clampCut]
  split
  · exact .refl s
  · split
    · exact .refl s
    · split
      · exact (stageKept_cutTicket ..).trans (stageKept_grantEvaluation _)
      · exact .refl s

theorem stageKept_clampClaim (n level : Nat) (s : State) : StageKept s (s.clampClaim n level) := by
  simp only [State.clampClaim]
  repeat' split
  all_goals first | exact .refl s | exact stageKept_stageClaim _ (by decide) ..

theorem stageKept_clampDown (n : Nat) (f : ReportFields) (s : State) : StageKept s (s.clampDown n f) := by
  simp only [State.clampDown]; split
  · exact (stageKept_clampCut ..).trans (stageKept_clampClaim ..)
  · exact .refl s

theorem kept_stagerReport (n : Nat) (f : ReportFields) (b : Bool) (s : State) : Kept s (s.stagerReport n f b) := by
  simp only [State.stagerReport]; split
  · exact ((kept_readBank n f s).trans (stageKept_clampDown ..).toKept).trans (kept_reportClaim ..)
  · exact (kept_readBank n f s).trans (stageKept_clampDown ..).toKept

theorem kept_lineReport (n : Nat) (f : ReportFields) (s : State) : Kept s (s.lineReport n f) := by
  simp only [State.lineReport]
  split
  · exact kept_setPart ..
  · split
    · exact (kept_workCondition s).trans (kept_clipCover ..)
    · exact .refl s

theorem kept_takeReport (b : Bool) (n : Nat) (f : ReportFields) (s : State) : Kept s (s.takeReport b n f) := by
  simp only [State.takeReport]
  refine Kept.trans ?_ (kept_lineReport ..)
  have h := (kept_storeReport n f s).trans (kept_reportFlags n f _)
  split
  · exact (h.trans (kept_stagerReport ..)).trans (stageKept_raiseReport ..).toKept
  · exact (h.trans (stageKept_raiseReport ..).toKept).trans (kept_stagerReport ..)

end Sys2Proof.Machine
end

