-- ==== Sys2Proof/Laws/Exec.lean ====
section
/-! SUPPORT. The outcomes of a command: what `event`, `settle` and the frames of the supervisor can answer. -/

namespace Sys2Proof.Machine

/-! ### Events -/

/-- An event always answers a next state: the same state, or what its effect leaves, settled. -/
theorem event_cases (s : State) (f : State → Option State) :
    s.event f = .next s ∨ ∃ t, s.inReset = none ∧ f s = some t ∧ s.event f = .next t.settle := by
  simp only [State.event]
  split
  · exact .inl rfl
  · next h =>
    split
    · exact .inl rfl
    · next t ht => exact .inr ⟨t, h, ht, rfl⟩

theorem event_of_some {s : State} {f : State → Option State} {t : State} (hr : s.inReset = none) (hf : f s = some t) :
    s.event f = .next t.settle := by simp [State.event, hr, hf]

theorem event_of_none {s : State} {f : State → Option State} (hf : f s = none) : s.event f = .next s := by
  simp only [State.event]; split <;> simp [hf]

/-- The transmission that is the arbiter's choice begins. -/
theorem transmit_of_choice {s : State} {x : TxRef} {wanted : TxRef → Bool} {send : State → State}
    (hx : s.arbiterChoice = some x) (hw : wanted x = true) : s.transmit wanted send = .next (send s).settle := by
  have hr : s.inReset = none := by
    simp only [State.arbiterChoice] at hx; split at hx <;> simp_all
  exact event_of_some hr (by simp [hx, hw])

/-! ### Timers and notices (R113, log 36) -/

theorem expire_of_none {s : State} {deadline : State → Option Nat} {act : State → State} (h : deadline s = none) :
    s.expire deadline act = none := by simp only [State.expire, h]

theorem upTo_of_mayPass {s : State} {d : Nat} (h : s.mayPass d) : s.upTo d = s := by
  simp only [State.upTo]; split
  · rfl
  · next hd => exact takeNotices_of_none (h.resolve_left hd).1 (h.resolve_left hd).2

/-- A timer whose deadline time may pass to expires at it. -/
theorem expire_of_mayPass {s : State} {deadline : State → Option Nat} {act : State → State} {d : Nat}
    (hd : deadline s = some d) (h : s.mayPass d) : s.expire deadline act = some (act (s.reach d)) := by
  simp only [State.expire, hd, upTo_of_mayPass h, Option.map_some]

/-- A timer whose deadline lies ahead expires, if it still runs, in the state in which the notices have been taken. -/
theorem expire_ahead {s : State} {deadline : State → Option Nat} {act : State → State} {d : Nat}
    (hd : deadline s = some d) (h : s.now < d) :
    s.expire deadline act = (deadline s.takeNotices).map fun e => act (s.takeNotices.reach e) := by
  simp only [State.expire, hd, State.upTo, if_neg (Nat.not_le.mpr h)]

/-- The Raise Allocator takes the first notice given to it and keeps the rest. -/
theorem takeRaiseNotice_cons {s : State} {x : Notice} {rest : List Notice} (h : s.raise.notices = x :: rest) :
    s.takeRaiseNotice = (s.setNotices rest s.lower.notices).raiseTakes x := by simp only [State.takeRaiseNotice, h]

/-- The Lowering Allocator takes the first notice given to it and keeps the rest. -/
theorem takeLowerNotice_cons {s : State} {x : Notice} {rest : List Notice} (h : s.lower.notices = x :: rest) :
    s.takeLowerNotice = (s.setNotices s.raise.notices rest).lowerTakes x := by simp only [State.takeLowerNotice, h]

/-! ### Reply windows (R29, R30) -/

theorem replyTxn_of {s : State} {x : Txn} (hx : s.link.txn = some x) (hk : x.kind ≠ .noReply) : s.replyTxn = some x := by
  simp only [State.replyTxn, hx, if_neg hk]

theorem replyTxn_eq_none {s : State} (h : ∀ x ∈ s.link.txn, x.kind = .noReply) : s.replyTxn = none := by
  simp only [State.replyTxn]; split
  · rfl
  · next x hx => exact if_pos (h x hx)

theorem noReplyTxn_of {s : State} {x : Txn} (hx : s.link.txn = some x) (hk : x.kind = .noReply) : s.noReplyTxn = some x := by
  simp only [State.noReplyTxn, hx, if_pos hk]

/-- The deadlines of the rows of a transaction, as the statements say them. -/
theorem frameEnds_eq (s : State) : s.frameEnds = s.deadlineOf .transactionEnd := by
  simp only [State.frameEnds, State.noReplyTxn, State.deadlineOf]
  cases s.link.txn with
  | none => rfl
  | some x => by_cases h : x.kind = .noReply <;> simp [h, Txn.sent]

theorem windowDue_eq (s : State) : s.windowDue = s.deadlineOf .replyWindowClose := by
  simp only [State.windowDue, State.replyTxn, State.deadlineOf]
  cases s.link.txn with
  | none => rfl
  | some x => by_cases h : x.kind = .noReply <;> simp [h, Txn.closes, Txn.sent]

/-- The link with a transaction that has a reply window, ended without its reply. -/
theorem settle_endsUnanswered {s : State} {x : Txn} (hx : s.replyTxn = some x) :
    s.endsUnanswered.settle = s.afterMiss x := by
  simp only [State.endsUnanswered, hx, State.endWithoutReply, State.afterMiss, State.endTxn, State.advanceSweep]
  split <;> simp_all

/-- A frame that has been received to its end is still within the times of a reply: its deadline is the earliest end. -/
theorem replyEnds_of {s : State} {x : Txn} {length : Nat} (hx : s.replyTxn = some x)
    (h : s.now ≤ x.start + x.span + 300 + Config.frameTime length) :
    s.replyEnds length = some (x.start + x.span + Config.frameTime length) := by
  simp only [State.replyEnds, hx]
  exact if_pos h

/-- A frame received later than a reply can end has begun outside the reply window. -/
theorem replyEnds_late {s : State} {x : Txn} {length : Nat} (hx : s.replyTxn = some x)
    (h : x.start + x.span + 300 + Config.frameTime length < s.now) : s.replyEnds length = none := by
  simp only [State.replyEnds, hx]
  exact if_neg (Nat.not_le.mpr h)

theorem replyEnds_of_none {s : State} {length : Nat} (hx : s.replyTxn = none) : s.replyEnds length = none := by
  simp only [State.replyEnds, hx]

/-- The row of a frame begun in the reply window, at its end, acts at once. -/
theorem expire_begun {s : State} {x : Txn} {length : Nat} {deadline : State → Option Nat} {act : State → State}
    (hd : deadline s = some (x.start + x.span + Config.frameTime length)) (hb : s.BegunInWindow x length) :
    s.expire deadline act = some (act s) := by
  rw [expire_of_mayPass hd (.inl hb.1)]
  simp only [State.reach, Nat.max_eq_left hb.1]

/-- The row of a reply at the end of a frame begun in the reply window: what `act` leaves. -/
theorem reply_begun {s : State} {x : Txn} {length : Nat} {act : State → State} (hx : s.replyTxn = some x)
    (hb : s.BegunInWindow x length) : s.expire (State.replyEnds length) act = some (act s) :=
  expire_begun (replyEnds_of hx hb.2) hb

/-- A discarded frame is that of no reply in the transaction in progress, and not of one that is still being sent. -/
theorem discardEnds_of {s : State} {x : Txn} {bytes : List Byte} (hx : s.replyTxn = some x) (he : s.expects bytes = false)
    (hn : x.start + x.span ≤ s.now) : s.discardEnds bytes = s.replyEnds bytes.length := by
  simp only [State.discardEnds, he, hx, Option.any_some, Bool.false_or]
  exact if_neg fun h => Nat.not_lt.mpr hn (of_decide_eq_true h)

/-- A frame that is the expected reply, begins outside the reply window, or comes with no such window, is discarded without
effect. -/
theorem discardEnds_eq_none {s : State} {bytes : List Byte}
    (h : s.expects bytes = true ∨ ∀ x ∈ s.replyTxn, s.now < x.start + x.span ∨
      x.start + x.span + 300 + Config.frameTime bytes.length < s.now) : s.discardEnds bytes = none := by
  simp only [State.discardEnds]
  split
  · rfl
  · next hd =>
    simp only [Bool.or_eq_true, not_or] at hd
    cases hx : s.replyTxn with
    | none => exact replyEnds_of_none hx
    | some x =>
      refine replyEnds_late hx (((h.resolve_left hd.1) x hx).resolve_left fun hn => hd.2 ?_)
      rw [hx]
      exact decide_eq_true hn

/-- A reply that is not the expected one ends its transaction as if none had come. -/
theorem receiveReport_unexpected {s : State} {addr : Byte} {payload : List Byte}
    (he : s.isExpected addr .report payload = false) : s.receiveReport addr payload = s.endsUnanswered := by
  simp only [State.receiveReport, State.isExpected] at *
  split <;> first | rfl | (split <;> simp_all)

theorem receiveJoin_unexpected {s : State} {addr : Byte} {payload : List Byte}
    (he : s.isExpected addr .join payload = false) : s.receiveJoin addr payload = s.endsUnanswered := by
  simp only [State.receiveJoin, State.isExpected] at *
  split <;> first | rfl | (split <;> simp_all)

theorem receiveReleased_unexpected {s : State} {addr : Byte} {payload : List Byte}
    (he : s.isExpected addr .released payload = false) : s.receiveReleased addr payload = s.endsUnanswered := by
  simp only [State.receiveReleased, State.isExpected] at *
  split <;> first | rfl | (split <;> simp_all)

/-! ### Settling -/

/-- Settling changes nothing but the reasons of the pending POLLs and the JOIN WINDOW. -/
theorem settle_eq (s : State) :
    s.settle = { s with link := { s.link with slotTx := s.settle.link.slotTx, joinWindow := s.settle.link.joinWindow } } :=
  rfl

theorem settle_due (s : State) (n : Nat) : s.settle.due n = s.due n := rfl

/-- A slot is due and not served, as the sweep reads it and as the statements say it (R33). -/
theorem dueUnserved_iff (s : State) (n : Nat) : s.DueUnserved n ↔ (s.due n && !look s.link.served n false) = true := by
  simp only [State.DueUnserved, State.due]
  cases (s.record n).state <;> simp

/-- The sweep position is the lowest-numbered due slot that is not served (R34). -/
theorem sweepPosition_eq_some (s : State) {n : Nat} (h : n < 64) :
    s.sweepPosition = some n ↔ s.DueUnserved n ∧ ∀ m < n, ¬ s.DueUnserved m := by
  simp only [State.sweepPosition, allSlots, List.find?_range_eq_some, dueUnserved_iff, List.mem_range, h, true_and,
    Bool.not_eq_true, Bool.not_eq_true']

theorem sweepPosition_eq_none (s : State) : s.sweepPosition = none ↔ ∀ n < 64, ¬ s.DueUnserved n := by
  simp only [State.sweepPosition, allSlots, List.find?_range_eq_none, dueUnserved_iff, Bool.not_eq_true,
    Bool.not_eq_true']

theorem settle_sweepPosition (s : State) : s.settle.sweepPosition = s.sweepPosition := rfl

/-- What stays pending for a slot when the reasons of its POLL are settled: all but those reasons. -/
theorem tx_settle_rest (s : State) {n : Nat} (h : n < 64) :
    (s.settle.tx n).assign = (s.tx n).assign ∧ (s.settle.tx n).release = (s.tx n).release ∧
      (s.settle.tx n).cover = (s.tx n).cover := by
  rw [State.tx_settle, if_pos h]; exact ⟨rfl, rfl, rfl⟩

/-! ### Stage claims and start times -/

/-- A claim that is taken and is not a lowering one leaves the envelope it asks for staged, whether or not it had to be
written (R60). -/
theorem record_stageClaim {s : State} {source : ClaimFrom} {n : Nat} (ceiling rate : Nat) (hn : n < 64)
    (ht : claimTaken source (s.record n) = true) (hs : source ≠ .lowering) :
    (s.stageClaim source n ceiling rate).record n =
      { s.record n with staged := some ((s.record n).claimEnvelope ceiling rate) } := by
  have hw : writtenEnvelope (s.record n) (min ceiling (s.record n).rating) (max rate 1) =
      (s.record n).claimEnvelope ceiling rate := by
    simp only [writtenEnvelope, UnitRecord.claimEnvelope]; split <;> simp_all
  simp only [State.stageClaim, ht]
  by_cases hi : claimIdle source (s.record n) (min ceiling (s.record n).rating) (max rate 1) = true
  · have hst : (s.record n).staged = some ((s.record n).claimEnvelope ceiling rate) := by
      simp only [claimIdle] at hi
      split at hi
      · cases hi
      · next e he => simp_all [UnitRecord.claimEnvelope]; rw [← hi.1, ← hi.2]
    simp only [hi, Bool.or_true, if_true, ← hst]
  · simp only [hi, hs, hw, Bool.or_false, if_false]
    simp [State.requestPush, State.record_setRecord, hn]

/-- The start time lies its lead before the arrival, and has passed where that is earlier than now (R121). -/
theorem startTime_eq (s : State) (z arrival : Nat) : s.startTime z arrival = arrival - s.startLead z := by
  simp only [State.startTime, State.startLead, sec]; omega

theorem startPassed_eq (s : State) (z arrival : Nat) :
    s.startPassed z arrival = decide (arrival < s.now + s.startLead z) := by
  simp only [State.startPassed, State.startLead, sec, Nat.add_assoc]; rfl

/-! ### Frames of the supervisor -/

theorem frameFate_of_takes {s : State} {fill : Bool} {bytes : List Byte} (h : s.takes fill bytes = true) :
    s.frameFate fill bytes = .checked := by
  simp only [State.takes, Bool.and_eq_true, Option.isNone_iff_eq_none] at h
  obtain ⟨hr, hb⟩ := h
  simp only [State.frameFate, hr]
  split at hb <;> simp_all

theorem endFrame_of_takes {s : State} {fill : Bool} {bytes : List Byte} (h : s.takes fill bytes = true) (act : State → State) :
    s.endFrame fill bytes act = (act s).settle := by
  simp [State.endFrame, frameFate_of_takes h]

/-- A request that is taken is executed by its own rule. -/
theorem requestFrame_of_takes {s : State} {code : Byte} {payload : List Byte}
    (h : s.takesRequest code payload = true) (body : List Byte → State → State × Reply) :
    s.requestFrame code payload body = (s.execute (body payload)).settle := by
  simp only [State.takesRequest, Bool.and_eq_true, decide_eq_true_eq] at h
  rw [State.requestFrame, endFrame_of_takes h.2, if_neg (by omega)]

/-- A request that answers and changes nothing leaves the state `answered`. -/
theorem execute_answered {s : State} {body : State → State × Reply} {x : Status} {payload : List Byte}
    (h : body s.portIdle = (s.portIdle, .answer { status := x, payload := payload })) :
    (s.execute body).settle = s.answered x payload := by
  simp only [State.execute, h]; rfl

theorem execute_answer {s t : State} {body : State → State × Reply} {r : Response}
    (h : body s.portIdle = (t, .answer r)) : s.execute body = t.beginExecution (some r) := by
  simp only [State.execute, h]

theorem takes_inReset {s : State} {fill : Bool} {bytes : List Byte} (h : s.takes fill bytes = true) : s.inReset = none := by
  simp only [State.takes, Bool.and_eq_true, Option.isNone_iff_eq_none] at h; exact h.1

end Sys2Proof.Machine
end

