-- ==== Sys2Proof/WellFormed.lean ====
section
/-! DEFINITION. Which commands are well formed: numbers inside the ranges of spec/00_scope.md NUMBERING, payloads inside
the lengths of R173 and R192. -/

namespace Sys2Proof

/-- A request payload is 0 to 250 bytes long (R173). -/
def requestPayloadOk (payload : List Byte) : Bool := payload.length ≤ 250

/-- Slots are numbered 0 to 63. -/
def slotOk (n : Nat) : Bool := n < 64

/-- Zones, sensor lines and tickets are numbered 0 to 15. -/
def sixteenOk (n : Nat) : Bool := n < 16

/-- The operands of a command lie in their ranges. -/
def Instr.wellFormed : Instr → Bool
  | .nop p | .status p | .peek p | .setMask p | .setPolicy p | .lock p | .restart p | .identify p
  | .lookup p | .list p | .bind p | .amend p | .retire p | .setProfile p | .readTickets p | .readQueue p
  | .hold p | .setZone p | .setSensorMap p | .readZone p | .readClaims p | .readPlant p | .setLimits p
  | .recall p => requestPayloadOk p
  | .unknown _ p => requestPayloadOk p
  | .checkError bytes => bytes ≠ []
  | .notReady | .executionComplete | .frameTimeout | .powerOnReset | .resetPin | .resetEnd
  | .recallWindowExpiry | .joinWindow | .refuse | .recallBroadcast | .transactionEnd | .replyWindowClose
  | .holdFilterExpiry | .lineStep | .chipSelectFall | .chipSelectRise => true
  | .holdInputChange _ => true
  | .clockEdge _ _ => true
  | .poll n | .assign n | .release n | .cover n | .leaseExpiry n | .bindTimeout n | .releaseDeadlineExpiry n
  | .affirmDue n | .affirmDeadlineExpiry n => slotOk n
  | .zoneEnvelope z | .ticketExpiry z | .debounceExpiry z | .arrivalExpiry z | .clearTimeExpiry z
  | .startTimerExpiry z | .plannedEnd z => sixteenOk z
  | .sensorLineChange l _ => sixteenOk l
  | .fieldFrameDiscarded bytes => bytes.length ≤ 260
  | .report _ p => p.length = 8 || p.length = 16
  | .join _ p => p.length = 9
  | .released _ p => p.length = 0

end Sys2Proof
end

