-- ==== Sys2Proof/Tests/Slice0.lean ====
section
/-! SUPPORT. The model's own tests: ill-formed terms, the two checks, worked examples of the manual, and states that meet
the hypotheses of the statements. -/

namespace Sys2Proof.Tests

open Sys2Proof.Machine

set_option Elab.async false
set_option synthInstance.maxSize 1000

/-! ### Ill-formed commands -/

theorem test_wf_payload : (Instr.status (List.replicate 251 0)).wellFormed = false := by decide +kernel
theorem test_wf_payload_longest : (Instr.status (List.replicate 250 0)).wellFormed = true := by decide +kernel
theorem test_wf_unknown : (Instr.unknown 0x99 (List.replicate 251 0)).wellFormed = false := by decide +kernel
theorem test_wf_check_error : (Instr.checkError []).wellFormed = false := by decide +kernel
theorem test_wf_slot : (Instr.poll 64).wellFormed = false ∧ (Instr.leaseExpiry 64).wellFormed = false := by decide +kernel
theorem test_wf_zone : (Instr.zoneEnvelope 16).wellFormed = false ∧ (Instr.arrivalExpiry 16).wellFormed = false := by decide +kernel
theorem test_wf_ticket : (Instr.ticketExpiry 16).wellFormed = false := by decide +kernel
theorem test_wf_line : (Instr.sensorLineChange 16 true).wellFormed = false := by decide +kernel
theorem test_wf_field_frame : (Instr.fieldFrameDiscarded (List.replicate 261 0)).wellFormed = false := by decide +kernel
theorem test_wf_report : (Instr.report 1 [0, 0]).wellFormed = false := by decide +kernel
theorem test_wf_join : (Instr.join 0 []).wellFormed = false := by decide +kernel
theorem test_wf_released : (Instr.released 1 [0]).wellFormed = false := by decide +kernel

/-! ### Bytes and checks (R174, R192) -/

/-- The nine ASCII digits the two checks are stated for. -/
def digits : List Byte := [0x31, 0x32, 0x33, 0x34, 0x35, 0x36, 0x37, 0x38, 0x39]

theorem test_crc8 : crc8 digits = 0xF4 := by decide +kernel
theorem test_crc16 : crc16 digits = 0x29B1#16 := by decide +kernel
theorem test_request_reads_back : parseRequest (requestBytes 0x42 [3] ++ [0, 0]) = some (0x42, [3]) := by decide +kernel
theorem test_bits_read_back : bitsBytes (bytesBits [0x12, 0xFE] ++ [true, false]) = [0x12, 0xFE] := by decide +kernel
theorem test_no_word_spells_a_command : decodeTableWord 8 0 = none := by decide +kernel

/-! ### States -/

/-- A part at rest: RUNNING, an empty table, nothing pending. -/
def base : State := { State.reset with governor := .running, link := Link.empty }

/-- A record of a state and a kind. -/
def unit (st : RecState) (kind : Kind) : UnitRecord :=
  { UnitRecord.vacant with
    state := st, kind := kind, serial := 5, rating := 2000, lease := some 3000000, revision := 1,
    binding := if kind = .inverter then some { zone := 1, profile := 2, exempt := false } else none }

/-- A BOUND inverter with an active envelope, and perhaps a staged one. -/
def lit (ceiling : Nat) (staged : Option Envelope) : UnitRecord :=
  { unit .bound .inverter with
    active := some { bank := false, ceiling := ceiling, rate := 400 }, staged := staged,
    lastReport := some (.inverter ceiling ceiling 0) }

/-- A staged envelope. -/
def lowered : Envelope := { bank := true, ceiling := 600, rate := 400 }

/-- A BOUND converter that counts 600 ‰, a discharge limit and a charge limit. -/
def store (discharge charge : Nat) : UnitRecord :=
  { unit .bound .storage with lastReport := some (.storage 0 600 discharge charge 0) }

/-- One record in an otherwise quiet part. -/
def withUnit (n : Nat) (r : UnitRecord) : State := base.setRecord n r

/-- A transaction in progress, its frame sent. -/
def inTxn (kind : TxnKind) (s : State) : State :=
  { s with link := { s.link with txn := some { kind := kind, start := 0, span := 0, frame := [] } } }

/-- A transaction in progress whose frame takes 90 µs. -/
def sending (kind : TxnKind) (s : State) : State :=
  { s with link := { s.link with txn := some { kind := kind, start := 0, span := 90, frame := [] } } }

/-- The moment at which a frame of 3 bytes is received that began 10 µs after a frame of 90 µs. -/
def frameReceived : Nat := 100 + Config.frameTime 3

/-- A transaction in progress, its frame sent and a reply of so many payload bytes received to its end. -/
def replied (kind : TxnKind) (payload : Nat) (s : State) : State :=
  { inTxn kind s with now := Config.frameTime (payload + 5) }

/-- That reply has begun in the reply window. -/
theorem begun_replied (kind : TxnKind) (payload : Nat) (s : State) :
    (replied kind payload s).BegunInWindow ⟨kind, 0, 0, []⟩ (payload + 5) := by
  simp only [State.BegunInWindow, replied]
  omega

/-- A quiet part in which one thing is pending for a slot. -/
def pendingFor (n : Nat) (r : UnitRecord) (t : SlotTx) : State := (withUnit n r).setTx n t

/-- What a command leaves. -/
def after (c : Instr) (s : State) : State :=
  match exec c s with
  | .next t => t
  | _ => s

/-- The response an execution begun by a command will make pending. -/
def answer (c : Instr) (s : State) : Option Response := (after c s).port.execution.bind (·.response)

/-- The live ticket of slot 0 in the states below. -/
def ticket : Ticket :=
  { slot := 0, start := 1600, target := 1800, rate := 200, granted := 0, expiry := 63000000, seq := 0 }

/-- A part with an inverter that holds a ticket, a converter, a FORECAST zone in TIMING and a granted claim. -/
def busy : State :=
  let s := (((base.setRecord 0 (lit 1600 none)).setRecord 62 { store 2000 1000 with serial := 62 }).setPart 0
    (some 1600)).setTicket 0 (some ticket)
  let source : Source := { sensor := 2, arrival := 60000000, lead := 60, cleared := false }
  let claim : Claim := { rate := 800, granted := 0, units := [], plannedEnd := 180000000, seq := 0 }
  let z := (s.setZone 3 { Zone.initial with state := .forecast, sources := [source], arrival := some 60000000 }).setZone 4
    { Zone.initial with state := .shaded, sources := [source], arrival := some 60000000 }
  let p := (z.setPhase 3 (.timing 1000000)).setPhase 4 (.lowering claim)
  { p with
    raise := { p.raise with riseClaimed := 200, nextSeq := 1 }
    lower := { p.lower with fallClaimed := 800, nextSeq := 1 }
    shade := { p.shade with map := place p.shade.map 2 [{ zone := 3, lead := 60 }] }
    line := { p.line with condition := .full }
    port := { p.port with causes := 1#12, attn := true } }

/-! ### Commands -/

theorem test_nop_is_silent : answer (.nop []) base = none ∧ (after (.nop []) base).port.execution.isSome = true := by decide +kernel
theorem test_status_clears : (answer (.status []) busy).map (·.payload) = some [0, 1, 0x0F, 0xFF] ∧
    (after (.status []) busy).port.causes = 0 ∧ (after (.status []) busy).port.attn = false := by decide +kernel
theorem test_peek_keeps : (after (.peek []) busy).port.causes = 1 := by decide +kernel
theorem test_set_mask : (after (.setMask [1, 0xFF, 0x02]) busy).port.mask = 0xF02#12 ∧
    (after (.setMask [1, 0xFF, 0x02]) busy).port.attn = false := by decide +kernel
theorem test_set_policy_range : (answer (.setPolicy [0x0C, 0, 0]) base).map (·.status) = some .range := by decide +kernel
theorem test_lock : (after (.lock []) base).port.lock = true := by decide +kernel
theorem test_restart : (after (.restart []) busy).lastReset = .restart ∧
    (after (.restart []) busy).port.pending.payload.getD 32 0 = 2 := by decide +kernel
theorem test_identify_text : ((answer (.identify []) base).map (·.payload.take 4)) = some [0x4B, 0x47, 0x36, 0x34] := by
  decide +kernel
theorem test_lookup_vacant : (answer (.lookup [0, 63]) base).map (·.payload.take 3) = some [63, 0, 1] := by decide +kernel
theorem test_list_bound : (answer (.list [0, 2]) busy).map (·.payload) = some [2, 0, 62] := by decide +kernel
theorem test_bind_stages : ((after (.bind [5, 1, 3, 2, 0, 3, 1]) (withUnit 5 (unit .addressed .inverter))).record 5).staged =
    some { bank := false, ceiling := 0, rate := 200 } := by decide +kernel
theorem test_bind_converter : (after (.bind [63]) (withUnit 63 (unit .addressed .storage))).line.condition = .caution := by
  decide +kernel
theorem test_amend_lower_rating : ((after (.amend [5, 1, 4, 1, 0xF4]) (withUnit 5 (lit 1600 none))).record 5).active =
    some { bank := false, ceiling := 500, rate := 400 } := by decide +kernel
theorem test_retire : ((after (.retire [5]) (withUnit 5 (lit 1600 none))).record 5).state = .retiring := by decide +kernel
theorem test_set_profile : (after (.setProfile [3, 1, 7]) base).profile 3 = { up := 7, down := 8 } := by decide +kernel
theorem test_read_tickets : (answer (.readTickets []) busy).map (·.payload.length) = some 28 := by decide +kernel
theorem test_read_queue_range : (answer (.readQueue [1, 64]) base).map (·.status) = some .range := by decide +kernel
theorem test_hold_cuts : (after (.hold [1]) busy).ticket 0 = none ∧ (after (.hold [1]) busy).raise.effHold = true ∧
    (after (.hold [1]) busy).port.causes = 0x401#12 := by decide +kernel
theorem test_set_zone_release : ((after (.setZone [4, 2]) busy).zone 4).state = .clear ∧
    (after (.setZone [4, 2]) busy).lower.notices = [.returnedClear 4 false] ∧
    (after (.setZone [4, 2]) busy).takeNotices.lower.fallClaimed = 0 := by decide +kernel
theorem test_set_sensor_map : look (after (.setSensorMap [2, 1, 1, 1, 60]) base).shade.map 2 [] =
    [{ zone := 1, lead := 60 }] := by decide +kernel
theorem test_read_zone : (answer (.readZone [3]) busy).map (·.payload.take 4) = some [3, 1, 0x01, 0x2C] := by decide +kernel
theorem test_read_claims : (answer (.readClaims []) busy).map (·.payload.take 8) = some [0, 0, 0x07, 0xD0, 0, 0, 0x03, 0x20] := by
  decide +kernel
theorem test_read_plant : (answer (.readPlant []) base).map (·.payload.length) = some 101 := by decide +kernel
theorem test_set_limits_cuts : (after (.setLimits [1, 0, 0, 0, 100]) busy).raise.riseClaimed = 0 := by decide +kernel
theorem test_recall : (after (.recall []) busy).governor = .recalling 30000000 ∧
    ((after (.recall []) busy).record 0).state = .recalled ∧ (after (.recall []) busy).phase 3 = .deferred := by decide +kernel
theorem test_unknown : (answer (.unknown 0x99 []) base).map (·.status) = some .unknown := by decide +kernel
theorem test_check_error : (answer (.checkError [1, 0, 0]) base).map (·.status) = some .checkError ∧
    (after (.checkError [1, 0, 0]) base).port.causes = 0x800#12 := by decide +kernel
theorem test_not_ready : (after .notReady (after (.nop []) base)).port.receiver =
    .frame { ready := false, bitsIn := [], out := [0x0A, 0, crc8 [0x0A, 0]], shifted := 0, lastEdge := 0 } := by decide +kernel
theorem test_execution_completes : (after .executionComplete (after (.list [0, 2]) base)).port.pending =
    { status := .done, payload := [0] } := by decide +kernel
theorem test_frame_timeout : (after .frameTimeout (after .chipSelectFall base)).port.pending.status = .frameTimeout := by decide +kernel
theorem test_power_on : (after .powerOnReset busy).inReset = some .powerOn := by decide +kernel
theorem test_reset_pin_keeps_lock : (after .resetPin (after (.lock []) busy)).port.lock = true := by decide +kernel
theorem test_reset_end : after .resetEnd (after .powerOnReset busy) = State.reset := by
  decide +kernel
theorem test_recall_window : (after .recallWindowExpiry (after (.recall []) busy)).governor = .running := by decide +kernel
theorem test_poll_frame : ((after (.poll 2) (after (.replyWindowClose) (inTxn .joinWindow (withUnit 2 (lit 1800 none))))).link.txn).map
    (fun x => x.frame.take 8) = some [3, 1, 5, 0, 0x07, 0x08, 0x01, 0x90] := by decide +kernel
theorem test_recall_broadcast : (after .recallBroadcast State.reset).link.recallTx = none := by decide +kernel
theorem test_join_window : ((after .joinWindow (after .transactionEnd (sending .noReply base))).link.txn).map (·.kind) =
    some .joinWindow := by decide +kernel
theorem test_join_of_a_unit : (((inTxn .joinWindow base).receiveJoin 0 [0, 0, 0, 0, 0, 7, 1, 0x07, 0xD0]).settle.record 62).state =
    .addressed := by decide +kernel
theorem test_join_then_assign : ((inTxn .joinWindow base).receiveJoin 0 [0, 0, 0, 0, 0, 7, 0, 0x07, 0xD0]).settle.arbiterChoice =
    some (.assign 0) := by decide +kernel
theorem test_released : (((inTxn (.release 5) (withUnit 5 (unit .retiring .inverter))).receiveReleased 6 []).settle.record 5) =
    .vacant := by decide +kernel
theorem test_report_clamps : ∀ f ∈ parseReport [0, 250, 0, 250, 1, 0x02, 0x58, 0], ∀ stagerFirst,
    (((withUnit 2 { lit 600 none with active := some lowered }).takeReport stagerFirst 2 f).record 2).staged =
    some { bank := false, ceiling := 350, rate := 400 } := by decide +kernel
theorem test_report_grants : ∀ f ∈ parseReport [0, 250, 0x07, 0x3A, 0, 0x01, 0x5E, 0], ∀ stagerFirst,
    ((withUnit 2 (lit 350 none)).takeReport stagerFirst 2 f).ticket 0 =
    some { slot := 2, start := 350, target := 650, rate := 300, granted := 0, expiry := 63000000, seq := 0 } := by decide +kernel
theorem test_report_of_the_other_form_is_a_miss : ((inTxn (.poll 62) (withUnit 62 (store 600 500))).receiveReport 63
    [0, 250, 0x07, 0x3A, 0, 0x01, 0x5E, 0]).record 62 = store 600 500 := by decide +kernel
/-- A frame that fails its check and begins in the reply window ends the transaction, at its end; one that begins while the
frame of the part is being sent, or more than 300 µs after it, changes nothing (R29, R30). -/
theorem test_discarded_frame :
    let s := fun now => { sending (.poll 2) base with now := now }
    State.discardEnds [0, 1, 2] (s frameReceived) = some (90 + Config.frameTime 3) ∧
    State.discardEnds [0, 1, 2] (s 89) = none ∧
    State.discardEnds [0, 1, 2] (s (frameReceived + 291)) = none ∧
    (sending (.poll 2) base).endsUnanswered.link.txn = none := by
  have h : ∀ now, ({ sending (.poll 2) base with now := now } : State).replyTxn = some ⟨.poll 2, 0, 90, []⟩ := fun _ => rfl
  have he : ∀ now, ({ sending (.poll 2) base with now := now } : State).expects [0, 1, 2] = false := fun now => by
    have : parseFieldFrame [0, 1, 2] = none := by decide +kernel
    simp only [State.expects, this]
  refine ⟨(discardEnds_of (h _) (he _) ?_).trans (replyEnds_of (h _) ?_), discardEnds_eq_none (.inr fun x hx => ?_),
    discardEnds_eq_none (.inr fun x hx => ?_), by decide +kernel⟩
  · simp only [frameReceived]; omega
  · simp only [frameReceived, List.length_cons, List.length_nil]; generalize Config.frameTime _ = t; omega
  all_goals
    rw [h] at hx
    cases Option.mem_some.mp hx
    simp only [frameReceived, List.length_cons, List.length_nil]
    generalize Config.frameTime _ = t
    omega
/-- A reply begun in the window is taken at its end, its own time having passed, and not later than it can end (R29). -/
theorem test_reply_takes_its_time :
    let s := fun now => { sending .joinWindow base with now := now }
    State.replyEnds 14 (s 0) = some (90 + Config.frameTime 14) ∧
    State.replyEnds 14 (s (391 + Config.frameTime 14)) = none := by
  have h : ∀ now, ({ sending .joinWindow base with now := now } : State).replyTxn = some ⟨.joinWindow, 0, 90, []⟩ :=
    fun _ => rfl
  exact ⟨replyEnds_of (h _) (by simp only []; omega), replyEnds_late (h _) (by simp only []; omega)⟩
/-- A frame without reply ends after its time; a reply window closes 300 µs after it, on an empty queue of itself (R29). -/
theorem test_times_of_a_transaction : (after .transactionEnd (sending .noReply base)).now = 90 ∧
    (after .replyWindowClose (sending (.poll 2) base)).now = 390 ∧
    { sending .noReply base with now := 90 }.dueRows = [.transactionEnd] ∧ (sending .noReply base).dueRows = [] ∧
    { sending (.poll 2) base with now := 390 }.dueRows = [.replyWindowClose] ∧
    { sending (.poll 2) base with now := 389 }.dueRows = [] := by
  decide +kernel
theorem test_lease_expiry : ((after (.leaseExpiry 5) (withUnit 5 (lit 1600 none))).record 5).state = .lapsed ∧
    ((after (.leaseExpiry 5) (withUnit 5 (lit 1600 none))).record 5).lapses = 1 := by decide +kernel
theorem test_bind_timeout : (after (.bindTimeout 5) (withUnit 5 { unit .addressed .inverter with bindDeadline := some 60 })).port.causes =
    4#12 := by decide +kernel
theorem test_release_deadline : (after (.releaseDeadlineExpiry 5)
    (withUnit 5 { unit .retiring .inverter with releaseDeadline := some 60 })).port.causes = 0x040#12 := by decide +kernel
theorem test_affirm_due : ((after (.affirmDue 62)
    (withUnit 62 { store 600 500 with affirm := some { deadline := 100, due := some 75 } })).tx 62).cover =
    some { share := 0, entry := 75 } := by decide +kernel
theorem test_affirm_deadline : (after (.affirmDeadlineExpiry 62)
    (withUnit 62 { store 600 500 with affirm := some { deadline := 100, due := none } })).now = 100 := by decide +kernel
theorem test_ticket_expiry : (after (.ticketExpiry 0) busy).raise.riseClaimed = 0 ∧
    ((after (.ticketExpiry 0) busy).record 0).slowRaises = 1 := by decide +kernel
theorem test_hold_line : (after .holdFilterExpiry (after (.holdInputChange true) base)).raise.effHold = true ∧
    (after .holdFilterExpiry (after (.holdInputChange true) base)).now = 20000 := by decide +kernel
theorem test_sensor_line : ((after (.sensorLineChange 2 true) base).sensor 2).timer = some (true, 500000) := by decide +kernel
theorem test_debounce : ((after (.debounceExpiry 2) (after (.sensorLineChange 2 true) busy)).zone 3).arrival =
    some 60500000 := by decide +kernel
theorem test_arrival : ((after (.arrivalExpiry 3) busy).zone 3).state = .shaded ∧
    (after (.arrivalExpiry 3) busy).takeNotices.phase 3 = .empty := by decide +kernel
theorem test_clear_time : ((after (.clearTimeExpiry 4) (busy.setZone 4 { busy.zone 4 with clearTime := some 5 })).zone 4) =
    Zone.initial := by decide +kernel
theorem test_start_timer : (after (.startTimerExpiry 3) busy).phase 3 = .empty := by decide +kernel
theorem test_planned_end : (after (.plannedEnd 4) busy).phase 4 = .lowered ∧ (after (.plannedEnd 4) busy).lower.fallClaimed = 0 := by
  decide +kernel
theorem test_line_step : (after .lineStep busy).line.pl = some 1600 ∧ (after .lineStep busy).line.timer = some 400000 := by
  decide +kernel
theorem test_clock_edge : (after (.clockEdge true true) (after .chipSelectFall base)).port.receiver =
    .frame { ready := true, bitsIn := [true], out := State.reset.port.pending.bytes, shifted := 0, lastEdge := 0 } := by decide +kernel
theorem test_chip_select_rise : (after .chipSelectRise (after .chipSelectFall base)) = base := by decide +kernel

/-! ### Worked examples of the manual -/

/-- The two converters of the examples of spec/07 7.4, slots 62 and 63. -/
def pair : State := (withUnit 62 (store 600 500)).setRecord 63 (store 500 500)

theorem test_split_of_1000 : pair.splitCover 1000 = [(62, 546), (63, 454)] := by decide +kernel
theorem test_split_of_1500 : pair.splitCover 1500 = [(62, 819), (63, 681)] ∧ pair.clippedShares 1500 = [(62, 600), (63, 500)] := by
  decide +kernel

/-- Zone 1 of the worked cloud passage of spec/10, as its sensor shades. -/
def cloud : State :=
  let s := (((base.setRecord 2 (lit 1800 none)).setRecord 3 (lit 1400 none)).setSensor 2
    { line := true, filtered := false, timer := some (true, 500000) })
  { s with shade := { s.shade with map := place s.shade.map 2 [{ zone := 1, lead := 60 }] }
           line := { s.line with lup := 1200, ldown := 1200 } }

theorem test_cloud_notices : (after (.debounceExpiry 2) cloud).raise.notices = [.leftClear 1 60500000] ∧
    (after (.debounceExpiry 2) cloud).lower.notices = [.leftClear 1 60500000] ∧
    (after (.debounceExpiry 2) cloud).dueNotices = [.raiseNotice, .lowerNotice] := by decide +kernel
theorem test_cloud_lowering : (after (.debounceExpiry 2) cloud).takeNotices.phase 1 = .lowering
    { rate := 800, granted := 500000, plannedEnd := 180500000, seq := 0,
      units := [{ slot := 2, start := 1800, target := 600, rate := 400, freed := false },
                { slot := 3, start := 1400, target := 600, rate := 400, freed := false }] } := by decide +kernel

/-- A grant of that claim stages the targets and hands over one frame (R128). -/
theorem test_cloud_frame : (after (.debounceExpiry 2) cloud).takeNotices.link.zoneEnvs =
      [{ zone := 1, slots := [2, 3], entry := 500000, order := 0 }] ∧
    ((after (.debounceExpiry 2) cloud).takeNotices.record 3).staged = some { bank := true, ceiling := 600, rate := 400 } := by
  decide +kernel

/-! ### States that meet the hypotheses of the statements -/

/-- A state with the invariants every step keeps. -/
def steady : State := busy.settle

/-- The part during a frame of which some bits have been clocked in. -/
def receiving (bits : List Bool) : State :=
  { base with port := { base.port with
      csLow := true, receiver := .frame { ready := true, bitsIn := bits, out := [], shifted := 0, lastEdge := 0 } } }

theorem test_hyp_StepRunsTheFrontCommand :
    ({ base with pending := [.lineStep, .peek []] } : State).pending = .lineStep :: [.peek []] := rfl
theorem test_hyp_EmptyQueueAndIdleCommands :
    (base.pending = [] ∧ base.dueEvents = []) ∧ (State.reset.pending = [] ∧ State.reset.dueEvents ≠ []) ∧
    State.reset.arbiterChoice ≠ some (.poll 0) ∧ (base.record 63).lease = none ∧ base.ticket 15 = none := by decide +kernel
theorem test_hyp_EmptyQueueAndIdleCommands_rows :
    base.arbiterChoice = none ∧ base.link.zoneEnvs = [] ∧ (base.record 63).bindDeadline = none ∧
    (base.record 63).releaseDeadline = none ∧ (base.record 63).affirm.bind (·.due) = none ∧ (base.record 63).affirm = none ∧
    base.raise.holdTimer = none ∧ (base.sensor 15).timer = none ∧ (base.zone 15).state ≠ .forecast ∧
    (base.zone 15).state ≠ .shaded ∧ (base.phase 15).code ≠ 1 ∧ (base.phase 15).code ≠ 3 ∧ base.governor = .running ∧
    base.link.txn = none ∧ base.port.execution = none ∧ base.port.receiver = .idle ∧
    (after .powerOnReset base).line.timer = none ∧ (after .powerOnReset base).inReset ≠ none ∧
    fieldOrTimer .lineStep = true := by decide +kernel
/-- UNKNOWN with a code that names a request, CHECK ERROR with a frame that passes, and pins that stay as they are. -/
theorem test_hyp_EmptyQueueAndIdleCommands_unchanged : (requestOf 0x70).isSome = true ∧
    (parseRequest [0x01, 0, crc8 [0x01, 0]]).isSome = true ∧ (receiving []).port.csLow = true ∧ base.port.csLow = false ∧
    base.port.receiver = .idle ∧ base.inReset = none := by decide +kernel
theorem test_hyp_StatusClearsAndPeekReads : busy.takesRequest 0x01 [] = true ∧ busy.takesRequest 0x02 [] = true ∧
    (receiving [false, false]).takesRequest 0x01 [] = true := by decide +kernel
theorem test_hyp_SetMaskWritesTheMask : (busy.takesRequest 0x03 [] = true ∧ busy.AttnOk) ∧
    busy.takesRequest 0x03 [0x01, 0xFF, 0xFF] = true ∧ busy.takesRequest 0x03 [0x01, 0, 0] = true := by decide +kernel
theorem test_hyp_SetPolicyWritesItsParts :
    let parts : List Part := [(0x02, [0x75, 0x30]), (0x01, [0])]
    base.takesRequest 0x04 [0x02, 0x75, 0x30, 0x01, 0] = true ∧ policyForm [0x02, 0x75, 0x30, 0x01, 0] = some parts ∧
    (base.port.lock && carriesClamp parts) = false ∧ partsInRange parts = true ∧
    base.kindChangeOk (base.policy.write parts).nr = true ∧ base.policy.minClaim = (base.policy.write parts).minClaim ∧
    base.policy.caution = (base.policy.write parts).caution ∧ base.policy.reserve = (base.policy.write parts).reserve := by
  decide +kernel
/-- A changed minimum claim rate, a changed caution level and early lowering turned on: each as the only setting that
changes, the last with a zone in TIMING and less than full cover. -/
theorem test_hyp_SetPolicyWritesItsParts_told :
    let part := { busy with line := { busy.line with condition := .none }, policy := { busy.policy with early := false } }
    (policyForm [0x0C, 0, 30] = some [(0x0C, [0, 30])] ∧ partsInRange [(0x0C, [0, 30])] = true ∧
      busy.takesRequest 0x04 [0x0C, 0, 30] = true ∧ (busy.policy.write [(0x0C, [0, 30])]).minClaim ≠ busy.policy.minClaim) ∧
    (after (.setPolicy [0x12, 0, 101]) busy).policy.caution ≠ busy.policy.caution ∧
    (policyForm [0x0F, 1] = some [(0x0F, [1])] ∧ part.takesRequest 0x04 [0x0F, 1] = true ∧ part.policy.early = false ∧
      (part.policy.write [(0x0F, [1])]).early = true ∧ part.phase 3 = .timing 1000000 ∧ part.WaitOk ∧
      (after (.setPolicy [0x0F, 1]) part).phase 3 = .empty) := by decide +kernel
/-- A reserve floor raised to the charge of a converter: the share on its way is clipped to 0 kW (R142). -/
theorem test_reserve_floor_clips_the_share :
    let s := pendingFor 62 (store 600 500) { SlotTx.empty with cover := some { share := 300, entry := 0 } }
    s.takesRequest 0x04 [0x13, 0x02, 0x58] = true ∧ (s.record 62).usable = true ∧
    (after (.setPolicy [0x13, 0x02, 0x58]) s).policy.reserve = 600 ∧
    ((after (.setPolicy [0x13, 0x02, 0x58]) s).tx 62).cover = some { share := 0, entry := 0 } := by decide +kernel
theorem test_hyp_LockSetsAndAnswers : base.takesRequest 0x05 [] = true := by decide +kernel
/-- The part with the grid-code lock set. -/
def locked : State := { base with port := { base.port with lock := true } }
theorem test_hyp_Refusals_setPolicy :
    (locked.takesRequest 0x04 [0x15, 0, 1] = true ∧ policyForm [0x15, 0, 1] = some [(0x15, [0, 1])] ∧
      (locked.port.lock && carriesClamp [(0x15, [0, 1])]) = true) ∧
    (policyForm [0x01, 3] = some [(0x01, [3])] ∧ partsInRange [(0x01, [3])] = false) ∧
    (policyForm [0x01, 0] = some [(0x01, [0])] ∧ partsInRange [(0x01, [0])] = true ∧
      (withUnit 62 (store 0 0)).takesRequest 0x04 [0x01, 0] = true ∧
      (withUnit 62 (store 0 0)).kindChangeOk (base.policy.write [(0x01, [0])]).nr = false) := by decide +kernel
theorem test_hyp_Refusals_limits_and_profiles :
    (locked.takesRequest 0x61 [1, 0, 0, 0, 5] = true ∧
      limitsForm [1, 0, 0, 0, 5] = some { lup := some 5, ldown := none }) ∧
    (base.takesRequest 0x61 [1, 0, 0, 0, 0] = true ∧ (limitsForm [1, 0, 0, 0, 0] = some { lup := some 0, ldown := none }) ∧
      limitOk 0 = false ∧ limitOk 100001 = false) ∧
    (base.takesRequest 0x20 [4] = true ∧ profileForm [4] = some { profile := 4, up := none, down := none }) ∧
    (locked.takesRequest 0x20 [3, 1, 16] = true ∧
      profileForm [3, 1, 16] = some { profile := 3, up := some 16, down := none }) ∧
    base.takesRequest 0x20 [3, 1, 16] = true := by decide +kernel
theorem test_hyp_Refusals_zone :
    (base.takesRequest 0x40 [16] = true ∧ zoneForm [16] = some { zone := 16, floor := none, release := false }) ∧
    (base.takesRequest 0x40 [15, 1, 0x03, 0xE9] = true ∧
      zoneForm [15, 1, 0x03, 0xE9] = some { zone := 15, floor := some 1001, release := false }) := by decide +kernel
theorem test_hyp_Refusals_bind :
    bindForm [64] = some { slot := 64, parts := { zone := none, profile := none, exempt := none, rating := none } } ∧
    (bindForm [63] = some { slot := 63, parts := { zone := none, profile := none, exempt := none, rating := none } } ∧
      (base.record 63).state ≠ .addressed ∧ base.takesRequest 0x12 [63] = true ∧ base.takesRequest 0x12 [64] = true) ∧
    (((withUnit 63 (unit .addressed .inverter)).record 63).state = .addressed ∧
      ({ zone := none, profile := none, exempt := none, rating := none } : BindParts).suits .inverter = false) := by decide +kernel
theorem test_hyp_Refusals_amend_and_retire :
    let none4 : BindParts := { zone := none, profile := none, exempt := none, rating := none }
    (amendForm [64, 0] = some { slot := 64, revision := 0, parts := none4, clearHealth := false } ∧
      base.takesRequest 0x13 [64, 0] = true ∧ base.takesRequest 0x13 [63, 0] = true) ∧
    (base.record 63).state = .vacant ∧
    (amendForm [5, 2] = some { slot := 5, revision := 2, parts := none4, clearHealth := false } ∧
      ((withUnit 5 (lit 0 none)).record 5).revision ≠ 2 ∧ ((withUnit 5 (lit 0 none)).record 5).state = .bound) ∧
    (((withUnit 5 (unit .retiring .inverter)).record 5).state = .retiring ∧
      ((withUnit 5 (unit .retiring .inverter)).record 5).revision = 1) ∧
    ({ none4 with rating := some 9 } : BindParts).amends .inverter = false ∧
    base.takesRequest 0x14 [64] = true ∧ base.takesRequest 0x14 [63] = true ∧
    (withUnit 5 (unit .retiring .inverter)).takesRequest 0x14 [5] = true := by decide +kernel
theorem test_hyp_RosterReadersAnswer : base.takesRequest 0x07 [] = true ∧ base.takesRequest 0x10 [0, 63] = true ∧
    base.takesRequest 0x10 [1, 0, 0, 0, 0, 0, 5] = true ∧
    (base.takesRequest 0x11 [0, 6] = true ∧ RecState.ofCode 6 = some .retiring) ∧
    (base.takesRequest 0x11 [0, 7] = true ∧ 6 < (7 : Byte).toNat) ∧ base.takesRequest 0x11 [1, 15] = true := by decide +kernel
theorem test_hyp_BlockReadersAnswer : base.takesRequest 0x30 [] = true ∧
    (base.takesRequest 0x31 [1, 63] = true ∧ queueForm [1, 63] = some (some 63) ∧ queueForm [] = some none) ∧
    base.takesRequest 0x42 [15] = true ∧
    (base.takesRequest 0x50 [1, 15, 2, 63] = true ∧ claimsForm [1, 15, 2, 63] = some { zone := some 15, start := some 63 }) ∧
    base.takesRequest 0x60 [] = true ∧ base.takesRequest 0x60 [1] = true ∧
    (base.takesRequest 0x20 [3] = true ∧ (3 : Byte).toNat ≤ 3) ∧ base.takesRequest 0x61 [] = true := by decide +kernel
theorem test_hyp_BadFrames_payloads : (base.takesRequest 0x00 [1] = true ∧ base.takesRequest 0x01 [1] = true ∧
      base.takesRequest 0x02 [1] = true ∧ base.takesRequest 0x05 [1] = true ∧ base.takesRequest 0x06 [1] = true ∧
      base.takesRequest 0x07 [1] = true ∧ base.takesRequest 0x30 [1] = true ∧ base.takesRequest 0x70 [1] = true) ∧
    (maskForm [1] = none ∧ policyForm [0] = none ∧ lookupForm [] = none ∧ listForm [2, 0] = none ∧ bindForm [] = none ∧
      amendForm [5] = none ∧ oneByteForm [] = none ∧ profileForm [] = none ∧ queueForm [1] = none ∧ zoneForm [] = none ∧
      mapForm [0, 1] = none ∧ claimsForm [3] = none ∧ plantForm [2] = none ∧ limitsForm [1, 0] = none) ∧
    (base.takesRequest 0x03 [1] = true ∧ base.takesRequest 0x04 [0] = true ∧ base.takesRequest 0x10 [] = true ∧
      base.takesRequest 0x11 [2, 0] = true ∧ base.takesRequest 0x12 [] = true ∧ base.takesRequest 0x13 [5] = true ∧
      base.takesRequest 0x14 [] = true ∧ base.takesRequest 0x20 [] = true ∧ base.takesRequest 0x31 [1] = true ∧
      base.takesRequest 0x32 [] = true ∧ base.takesRequest 0x40 [] = true ∧ base.takesRequest 0x41 [0, 1] = true ∧
      base.takesRequest 0x42 [] = true ∧ base.takesRequest 0x50 [3] = true ∧ base.takesRequest 0x60 [2] = true ∧
      base.takesRequest 0x61 [1, 0] = true) := by decide +kernel
theorem test_hyp_BadFrames_codes : ((requestOf 0x71).isNone = true ∧ base.takesRequest 0x71 [] = true) ∧
    (parseRequest [0x01, 251, 0] = none ∧ base.takes false [0x01, 251, 0] = true) := by decide +kernel
theorem test_hyp_BindBindsTheRecord :
    let s := withUnit 5 (unit .addressed .inverter)
    let u := withUnit 63 (unit .addressed .storage)
    let parts : BindParts := { zone := some 15, profile := some 3, exempt := some true, rating := some 4000 }
    let none4 : BindParts := { zone := none, profile := none, exempt := none, rating := none }
    (s.takesRequest 0x12 [5, 1, 15, 2, 3, 3, 1, 4, 0x0F, 0xA0] = true ∧
      bindForm [5, 1, 15, 2, 3, 3, 1, 4, 0x0F, 0xA0] = some { slot := 5, parts := parts } ∧
      (s.record 5).state = .addressed ∧ (s.record 5).kind = .inverter ∧ (s.record 5).EnvelopesOk ∧ parts.inRange = true) ∧
    (u.takesRequest 0x12 [63] = true ∧ bindForm [63] = some { slot := 63, parts := none4 } ∧
      (u.record 63).state = .addressed ∧ (u.record 63).kind = .storage ∧ none4.onlyRating = true ∧ none4.inRange = true) := by
  decide +kernel
theorem test_hyp_AmendAppliesEveryPart :
    let s := withUnit 5 (lit 1600 (some lowered))
    let a : AmendArgs :=
      { slot := 5, revision := 1, parts := { zone := none, profile := none, exempt := none, rating := some 10 }, clearHealth := true }
    s.takesRequest 0x13 [5, 1, 4, 0, 10, 5] = true ∧ amendForm [5, 1, 4, 0, 10, 5] = some a ∧ (s.record 5).state = .bound ∧
    a.revision = (s.record 5).revision ∧ a.parts.amends (s.record 5).kind = true ∧ s.QueueOk := by decide +kernel

/-- A part under an effective hold with one BOUND inverter, which is queued. -/
def heldQueue : State :=
  let s := withUnit 5 (lit 1600 none)
  { s with raise := { s.raise with holdFlag := true, effHold := true, queue := [{ slot := 5, wanted := 100, time := 0 }] } }

/-- A part under an effective hold with one exempt inverter, which holds a ticket. -/
def heldTicket : State :=
  let s := ((withUnit 0 { lit 1600 none with binding := some { zone := 1, profile := 2, exempt := true } }).setTicket 0
    (some ticket))
  { s with raise := { s.raise with holdFlag := true, effHold := true, riseClaimed := 200, nextSeq := 1 } }

/-- The cuts, removals and grants an AMEND brings about: a rating below the target, a zone that is not CLEAR, hold-exempt
cleared, hold-exempt set. -/
theorem test_hyp_AmendAppliesEveryPart_clauses :
    (busy.QueueOk ∧ busy.ticketOf 0 = some 0 ∧ busy.ticket 0 = some ticket ∧ ticket.target = 1800 ∧
      amendForm [0, 1, 4, 0x06, 0xA4] = some ⟨0, 1, ⟨none, none, none, some 1700⟩, false⟩) ∧
    (amendForm [0, 1, 1, 3] = some ⟨0, 1, ⟨some 3, none, none, none⟩, false⟩ ∧
      (busy.zone 3).state ≠ .clear) ∧
    (heldTicket.QueueOk ∧ heldTicket.takesRequest 0x13 [0, 1, 3, 0] = true ∧ (heldTicket.record 0).exempt = true) ∧
    (heldQueue.QueueOk ∧ heldQueue.takesRequest 0x13 [5, 1, 3, 1] = true ∧ heldQueue.queued 5 = true ∧
      (heldQueue.record 5).exempt = false ∧ heldQueue.zoneClear (heldQueue.record 5) = true ∧
      (heldQueue.grantRate (heldQueue.record 5)).isSome = true ∧ heldQueue.ticket 15 = none) := by decide +kernel
theorem test_amend_zone_cuts_and_removes : (after (.amend [0, 1, 1, 3]) busy).ticket 0 = none ∧
    ((after (.amend [0, 1, 1, 3]) busy).record 0).staged = some { bank := true, ceiling := 1600, rate := 400 } := by decide +kernel
theorem test_amend_exempt_grants : (after (.amend [5, 1, 3, 1]) heldQueue).queued 5 = false ∧
    ((after (.amend [5, 1, 3, 1]) heldQueue).ticketOf 5) = some 0 := by decide +kernel
theorem test_hyp_RetireEndsTheRecord :
    let s := withUnit 63 (unit .recalled .storage)
    let u := withUnit 5 (lit 1600 none)
    (s.takesRequest 0x14 [63] = true ∧ s.QueueOk ∧ (s.record 63).state = .recalled) ∧
    (u.takesRequest 0x14 [5] = true ∧ u.QueueOk ∧ (u.record 5).state = .bound) := by decide +kernel
theorem test_hyp_SetProfileWritesTheEntry : base.takesRequest 0x20 [3, 1, 15, 2, 0] = true ∧
    profileForm [3, 1, 15, 2, 0] = some { profile := 3, up := some 15, down := some 0 } ∧ base.port.lock = false := by decide +kernel
/-- An up-rate of 0 % cuts the ticket of an inverter of the profile, at the descent rate of the new entry, and removes its
entry from the queue; an inverter of another profile keeps its ticket (R56). -/
theorem test_hyp_SetProfileWritesTheEntry_cut :
    (busy.QueueOk ∧ busy.takesRequest 0x20 [2, 1, 0] = true ∧
      profileForm [2, 1, 0] = some { profile := 2, up := some 0, down := none } ∧ busy.ticketOf 0 = some 0 ∧
      (busy.record 0).kind = .inverter ∧ (busy.record 0).binding = some { zone := 1, profile := 2, exempt := false }) ∧
    (after (.setProfile [2, 1, 0]) busy).ticket 0 = none ∧ (after (.setProfile [1, 1, 0]) busy).ticket 0 = some ticket ∧
    heldQueue.queued 5 = true ∧ (after (.setProfile [2, 1, 0]) heldQueue).queued 5 = false ∧
    (after (.setProfile [1, 1, 0]) heldQueue).queued 5 = true := by decide +kernel
/-- The entries of a record that becomes VACANT are freed in a live claim (R4, R132). -/
theorem test_entries_are_freed :
    let u : ClaimUnit := { slot := 5, start := 1600, target := 600, rate := 400, freed := false }
    let c : Claim := { rate := 800, granted := 0, plannedEnd := 9, seq := 0, units := [u, { u with slot := 6 }] }
    let s := inTxn (.release 5) ((withUnit 5 (unit .retiring .inverter)).setPhase 4 (.lowering c))
    (s.receiveReleased 6 []).phase 4 = .lowering { c with units := [{ u with freed := true }, { u with slot := 6 }] } := by
  decide +kernel
theorem test_hyp_HoldRequestWritesTheFlag : busy.HoldOk ∧ busy.takesRequest 0x32 [0] = true ∧
    (busy.takesRequest 0x32 [3] = true ∧ 2 < (3 : Byte).toNat) ∧ busy.takesRequest 0x32 [1] = true ∧
    busy.takesRequest 0x32 [2] = true ∧ busy.raise.effHold = false := by decide +kernel
/-- HOLD SET with the ticket of a record that is not exempt, and with an exempt one; HOLD CLEAR with a held entry, which
release grants; a HOLD that leaves effective hold as it was (R87, R94, R95). -/
theorem test_hyp_HoldRequestWritesTheFlag_changes :
    let free := { heldTicket with raise := { heldTicket.raise with holdFlag := false, effHold := false } }
    (busy.QueueOk ∧ (busy.record 0).exempt = false ∧ (after (.hold [1]) busy).ticketOf 0 = none ∧
      ((after (.hold [1]) busy).record 0).staged = some { bank := true, ceiling := 1600, rate := 400 } ∧
      ((after (.hold [1]) busy).tx 0).push = some 0) ∧
    (free.HoldOk ∧ free.QueueOk ∧ free.takesRequest 0x32 [1] = true ∧ (free.record 0).exempt = true ∧
      (after (.hold [1]) free).ticket 0 = some ticket) ∧
    (heldQueue.HoldOk ∧ heldQueue.takesRequest 0x32 [2] = true ∧ heldQueue.raise.effHold = true ∧
      (after (.hold [2]) heldQueue).raise.queue = [] ∧ (after (.hold [2]) heldQueue).ticketOf 5 = some 0) ∧
    (after (.hold [1]) heldQueue).raise.effHold = heldQueue.raise.effHold := by decide +kernel
/-- The 20 ms of the HOLD line end with effective hold becoming yes, becoming no, and staying. -/
theorem test_hyp_HoldLineIsFiltered_changes :
    let line := fun (level : Bool) (s : State) => { s with raise := { s.raise with holdLine := level, holdTimer := some 9 } }
    let h := { heldQueue with raise := { heldQueue.raise with holdFlag := false, holdFiltered := true } }
    ((line true busy).QueueOk ∧ (line true busy).raise.effHold = false ∧
      (after .holdFilterExpiry (line true busy)).raise.effHold = true ∧
      (after .holdFilterExpiry (line true busy)).ticket 0 = none) ∧
    ((line false h).raise.effHold = true ∧ (after .holdFilterExpiry (line false h)).raise.effHold = false ∧
      (after .holdFilterExpiry (line false h)).ticketOf 5 = some 0) ∧
    ((line true heldQueue).raise.effHold = true ∧
      (after .holdFilterExpiry (line true heldQueue)).raise.queue = heldQueue.raise.queue) := by decide +kernel
theorem test_hyp_SetZoneWritesAndReleases :
    let a : ZoneArgs := { zone := 15, floor := some 1000, release := true }
    busy.takesRequest 0x40 [15, 1, 0x03, 0xE8, 2] = true ∧ zoneForm [15, 1, 0x03, 0xE8, 2] = some a ∧ busy.WaitOk ∧
    (busy.zone 4).state ≠ .clear ∧ busy.takesRequest 0x40 [4, 2] = true ∧
    zoneForm [4, 2] = some { zone := 4, floor := none, release := true } := by decide +kernel
theorem test_hyp_SetSensorMapReplacesTheList :
    (base.takesRequest 0x41 [16] = true ∧ mapForm [16] = some { sensor := 16, entries := none }) ∧
    (base.takesRequest 0x41 [15, 1, 1, 16, 1] = true ∧
      mapForm [15, 1, 1, 16, 1] = some { sensor := 15, entries := some [{ zone := 16, lead := 1 }] }) ∧
    (base.takesRequest 0x41 [15, 1, 1, 15, 255] = true ∧
      mapForm [15, 1, 1, 15, 255] = some { sensor := 15, entries := some [{ zone := 15, lead := 255 }] }) ∧
    (base.takesRequest 0x41 [15] = true ∧ mapForm [15] = some { sensor := 15, entries := none }) := by decide +kernel
theorem test_hyp_SetLimitsWritesTheLimits : busy.takesRequest 0x61 [1, 0, 0, 0, 1, 2, 0, 0, 0, 1] = true ∧
    limitsForm [1, 0, 0, 0, 1, 2, 0, 0, 0, 1] = some { lup := some 1, ldown := some 1 } ∧ busy.port.lock = false ∧
    limitOk 1 = true ∧ limitOk 100000 = true ∧ busy.RiseOk ∧ busy.WaitOk ∧ busy.FallOk := by decide +kernel
/-- A ticket and a claim that no longer fit, and a claim with a unit in its list. -/
theorem test_hyp_SetLimitsWritesTheLimits_cuts :
    let c : Claim :=
      { rate := 800, granted := 0, plannedEnd := 9, seq := 0
        units := [{ slot := 0, start := 1600, target := 600, rate := 400, freed := false }] }
    busy.QueueOk ∧ (busy.ticket 0 = some ticket ∧ 1 < busy.ticketRatesUpTo ticket.seq) ∧
    ((busy.claim 4).isSome = true ∧ 1 < busy.claimRatesUpTo 0 ∧ busy.governor = .running) ∧
    ((busy.setPhase 4 (.lowering c)).phase 4 = .lowering c ∧ (c.units.map (·.slot)).Nodup ∧
      (((busy.setPhase 4 (.lowering c)).cutClaim 4).record 0).staged = some { bank := true, ceiling := 1600, rate := 400 }) := by
  decide +kernel
/-- Limits that rise, with nothing to cut: a held entry is not granted, a waiting zone without a member is EMPTY. -/
theorem test_hyp_SetLimitsWritesTheLimits_risen :
    let s := busy.setPhase 3 .waiting
    let u := { s with lower := { s.lower with waitList := [3] } }
    u.raise.riseClaimed ≤ 3000 ∧ u.lower.fallClaimed ≤ 3000 ∧ u.line.lup < 3000 ∧
    (after (.setLimits [1, 0, 0, 0x0B, 0xB8, 2, 0, 0, 0x0B, 0xB8]) u).line.lup = 3000 ∧
    (after (.setLimits [1, 0, 0, 0x0B, 0xB8, 2, 0, 0, 0x0B, 0xB8]) u).phase 3 = .empty := by decide +kernel
/-- The newest of two tickets is cut, the older one stands (R87). -/
theorem test_cut_newest_first :
    let s := (busy.setRecord 1 (lit 900 none)).setTicket 1
      (some { ticket with slot := 1, start := 900, target := 1000, rate := 150, seq := 1 })
    let u := { s with raise := { s.raise with riseClaimed := 350, nextSeq := 2 } }
    u.RiseOk ∧ (after (.setLimits [1, 0, 0, 0, 200]) u).ticket 1 = none ∧
    (after (.setLimits [1, 0, 0, 0, 200]) u).ticket 0 = some ticket := by decide +kernel
theorem test_hyp_RecallRequestBeginsARecall :
    (State.reset.takesRequest 0x70 [] = true ∧ State.reset.governor = .recalling 30000000) ∧
    (busy.takesRequest 0x70 [] = true ∧ busy.governor = .running) := by decide +kernel
theorem test_hyp_PinsOfThePort :
    (base.inReset = none ∧ base.port.csLow = false ∧ base.port.execution = none) ∧
    ((after (.nop []) base).inReset = none ∧ (after (.nop []) base).port.csLow = false ∧
      (after (.nop []) base).port.execution = some { response := none, start := 0 }) ∧
    ((receiving []).port.receiver = .frame { ready := true, bitsIn := [], out := [], shifted := 0, lastEdge := 0 } ∧
      (receiving []).port.sck = false) ∧
    ((after (.clockEdge true true) (receiving [])).port.sck = true ∧
      (after (.clockEdge true true) (receiving [])).port.receiver =
        .frame { ready := true, bitsIn := [true], out := [], shifted := 0, lastEdge := 0 }) ∧
    base.port.receiver = .idle := by decide +kernel
/-- Bits 7, 6, 5 of the latched byte C3H, and the bit behind it (R173, R193). -/
theorem test_data_out : [0, 1, 2, 8].map (fun n =>
    let f : FrameRx := { ready := true, bitsIn := [], out := [0xC3], shifted := n, lastEdge := 0 }
    ({ base with port := { base.port with receiver := .frame f } } : State).dataOut) = [true, true, false, false] := by
  decide +kernel
theorem test_hyp_ExecutionsCompleteAndFramesTimeOut :
    ((after (.nop []) base).inReset = none ∧
      (after (.nop []) base).port.execution = some { response := none, start := 0 }) ∧
    base.takesRequest 0x00 [] = true ∧ (receiving []).inReset = none ∧ (receiving []).mayPass 2000 := by decide +kernel
theorem test_hyp_ClockedFrameIsItsRequest :
    let s := receiving (bytesBits (requestBytes 0x14 [5] ++ [0]) ++ [true])
    requestOfRow (.retire [5]) = some (0x14, [5]) ∧ [5].length ≤ 250 ∧ [true].length < 8 ∧ s.inReset = none ∧
    s.port.receiver = .frame { ready := true, bitsIn := bytesBits (requestBytes 0x14 [5] ++ [0]) ++ [true], out := [],
                               shifted := 0, lastEdge := 0 } := by decide +kernel
theorem test_hyp_AnswersHaveTheirLengths : base.policy.nr ≤ 2 ∧ ({ base.policy with nr := 0 } : Policy).nr ≤ 2 := by decide +kernel
theorem test_hyp_LockThroughResets : base.inReset ≠ some .powerOn ∧ base.takesRequest 0x06 [] = true ∧
    (after .powerOnReset base).inReset = some .powerOn ∧ (after .resetPin locked).inReset = some .resetPin ∧
    after .resetPin (after .powerOnReset base) = after .powerOnReset base := by decide +kernel
theorem test_hyp_ResetsEndInStartUp : (after .powerOnReset base).inReset = some .powerOn ∧
    base.takesRequest 0x06 [] = true := by decide +kernel

theorem test_hyp_PollCarriesTheEnvelope :
    (pendingFor 63 (store 0 0) { SlotTx.empty with routine := some 0 }).arbiterChoice = some (.poll 63) ∧
    (pendingFor 5 (lit 1600 (some lowered)) { SlotTx.empty with push := some 0 }).arbiterChoice = some (.poll 5) := by decide +kernel
theorem test_hyp_LinkTransactionsBegin :
    (base.settle.arbiterChoice = some .joinWindow) ∧
    (({ base with link := { base.link with refuse := some (7, 0) } } : State).arbiterChoice = some .refuse) ∧
    (State.reset.arbiterChoice = some .recall) ∧
    (pendingFor 63 (unit .retiring .storage) { SlotTx.empty with release := some 0 }).arbiterChoice = some (.release 63) ∧
    (pendingFor 63 (unit .addressed .storage) { SlotTx.empty with assign := some 0 }).arbiterChoice = some (.assign 63) := by
  decide +kernel
theorem test_hyp_ZoneEnvelopeAndCoverBegin :
    let e : ZoneEnvTx := { zone := 1, slots := [5, 63], entry := 0, order := 0 }
    let s := withUnit 5 (lit 1600 (some lowered))
    (({ s with link := { s.link with zoneEnvs := [e] } } : State).arbiterChoice = some (.zoneEnv e) ∧ e.slots.Nodup ∧
      (s.record 5).staged = some lowered) ∧
    ({ base with link := { base.link with zoneEnvs := [e] } } : State).arbiterChoice = some (.zoneEnv e) ∧
    ((pendingFor 63 (store 0 0) { SlotTx.empty with cover := some { share := -7, entry := 0 } }).arbiterChoice =
      some (.cover 63) ∧
     ((pendingFor 63 (store 0 0) { SlotTx.empty with cover := some { share := -7, entry := 0 } }).tx 63).cover =
      some { share := -7, entry := 0 }) := by decide +kernel
theorem test_hyp_ArbiterTakesTheFirst : State.reset.arbiterChoice = some .recall ∧
    State.reset.candidates ≠ [] ∧ base.candidates = [] := by decide +kernel
theorem test_hyp_TransactionsEnd :
    (inTxn .noReply base).inReset = none ∧ (inTxn .noReply base).link.txn = some ⟨.noReply, 0, 0, []⟩ ∧
    (inTxn (.poll 63) base).link.txn = some ⟨.poll 63, 0, 0, []⟩ ∧ (inTxn .joinWindow base).link.txn = some ⟨.joinWindow, 0, 0, []⟩ ∧
    (inTxn .noReply base).mayPass 0 ∧ (inTxn (.poll 63) base).mayPass 300 ∧ base.link.txn = none := by decide +kernel
/-- A frame while the frame of the part is being sent; one that has begun in the window, at the bounds of its end; and one
that has begun after the window. -/
theorem test_hyp_TransactionsEnd_window :
    let s := sending (.poll 63) base
    let x : Txn := ⟨.poll 63, 0, 90, []⟩
    let at_ := fun now => { s with now := now }
    (s.link.txn = some x ∧ s.now < x.start + x.span ∧ s.raise.notices = [] ∧ s.lower.notices = [] ∧
      (parseFieldFrame [0, 1, 2]).isNone = true) ∧
    (at_ frameReceived).BegunInWindow x 3 ∧
    x.start + x.span + Config.frameTime 3 + 300 < (at_ (frameReceived + 291)).now ∧
    (at_ (90 + Config.frameTime 3)).BegunInWindow x 3 ∧ (at_ (390 + Config.frameTime 3)).BegunInWindow x 3 := by
  refine ⟨by decide +kernel, ?_, ?_, ?_, ?_⟩ <;>
    simp only [State.BegunInWindow, frameReceived] <;> generalize Config.frameTime 3 = t <;> omega
/-- A valid REPORT that is not the expected reply, and one that is. -/
theorem test_hyp_TransactionsEnd_valid_frames :
    let s := inTxn (.poll 5) (withUnit 5 (lit 1600 none))
    let p : List Byte := [0, 250, 0, 250, 1, 0x02, 0x58, 0]
    parseFieldFrame (fieldFrame 7 0x12 p) = some (7, .report, p) ∧ s.isExpected 7 .report p = false ∧
    parseFieldFrame (fieldFrame 6 0x12 p) = some (6, .report, p) ∧ s.isExpected 6 .report p = true ∧
    s.isExpected 0 .join [0, 0, 0, 0, 0, 7, 0, 0x0F, 0xA0] = false ∧ s.isExpected 6 .released [] = false ∧
    (inTxn .joinWindow s).isExpected 0 .join [0, 0, 0, 0, 0, 7, 0, 0x0F, 0xA0] = true ∧
    (inTxn (.release 5) (withUnit 5 (unit .retiring .inverter))).isExpected 6 .released [] = true := by decide +kernel
/-- A valid REPORT of another slot ends the transaction, as the row of a REPORT; the bytes of its frame are not those of the
expected reply. -/
theorem test_unexpected_report_is_a_miss :
    let s := inTxn (.poll 5) (withUnit 5 (lit 1600 none))
    let p : List Byte := [0, 250, 0, 250, 1, 0x02, 0x58, 0]
    (s.receiveReport 7 p).link.txn = none ∧ s.expects (fieldFrame 7 0x12 p) = false ∧
    s.expects (fieldFrame 6 0x12 p) = true := by decide +kernel

/-- A short REPORT that acknowledges the staged envelope of the states below. -/
def report : List Byte := [0, 250, 0x02, 0x58, 1, 0x02, 0x58, 0]

/-- The fields of that REPORT. -/
def reportFields : ReportFields :=
  { output := 250, available := 600, bank := some true, ceiling := 600, dormant := false, fallback := false, long := none }

theorem test_hyp_ReportMovesTheRecord :
    let s := replied (.poll 5) report.length (withUnit 5 (lit 1600 (some lowered)))
    s.BegunInWindow ⟨.poll 5, 0, 0, []⟩ (report.length + 5) ∧ s.inReset = none ∧ s.link.txn = some ⟨.poll 5, 0, 0, []⟩ ∧ (6 : Byte).toNat = 5 + 1 ∧
    parseReport report = some reportFields ∧ reportFields.fits (s.record 5).kind = true ∧ (s.record 5).state = .bound :=
  ⟨begun_replied .., by decide +kernel⟩
/-- The flags of a REPORT, and the other states it acts in. -/
theorem test_hyp_ReportMovesTheRecord_clauses :
    (parseReport [0, 0, 0, 0, 0, 0, 0, 1]).map (fun f => (f.dormant, f.fallback)) = some (true, false) ∧
    (parseReport [0, 0, 0, 0, 0, 0, 0, 3]).map (fun f => (f.dormant, f.fallback)) = some (true, true) ∧
    (parseReport (List.replicate 16 0)).map (fun f => f.fits .storage) = some true ∧
    ((withUnit 5 (unit .addressed .inverter)).record 5).state = .addressed ∧
    ((withUnit 5 (unit .dormant .inverter)).record 5).state = .dormant ∧
    ((withUnit 63 (unit .lapsed .storage)).record 63).state = .lapsed ∧
    ((withUnit 5 (unit .retiring .inverter)).record 5).state = .retiring := by decide +kernel
/-- A LAPSED inverter to be reclaimed, and a DORMANT one that wakes in a light that suits its ceiling. -/
theorem test_hyp_ReportMovesTheRecord_claims :
    let l := withUnit 5 { lit 600 none with state := .lapsed }
    let d := withUnit 5 { lit 600 none with state := .dormant }
    ((l.record 5).state = .lapsed ∧ (l.record 5).kind = .inverter ∧ (l.record 5).staged = none) ∧
    ((d.record 5).state = .dormant ∧ (d.record 5).staged = none ∧ d.QueueOk ∧ reportFields.dormant = false ∧
      min reportFields.available (d.record 5).rating - 600 ≤ (d.record 5).rating * d.policy.raiseThr / 1000 ∧
      600 ≤ min reportFields.available (d.record 5).rating + (d.record 5).rating * d.policy.clampGap / 1000) := by
  decide +kernel
theorem test_report_reclaims : ∀ stagerFirst, (((withUnit 5 { lit 600 none with state := .lapsed }).takeReport stagerFirst 5
    reportFields).record 5).staged = some { bank := true, ceiling := 350, rate := 400 } := by decide +kernel
theorem test_report_wakes : ∀ stagerFirst, (((withUnit 5 { lit 600 none with state := .dormant }).takeReport stagerFirst 5
    reportFields).record 5).staged = some { bank := true, ceiling := 600, rate := 400 } := by decide +kernel
/-- A DORMANT inverter that wakes and asks for a raise, which is granted at once: the REPORT names the bank and the
ceiling of that grant, so the Stager takes it for its acknowledgement where it reads second (R76, log 5). -/
theorem test_report_wakes_into_a_grant :
    let s := withUnit 5 { lit 350 none with state := .dormant }
    let f : ReportFields := { reportFields with available := 1850, ceiling := 650 }
    s.QueueOk ∧ f.dormant = false ∧ f.fallback = false ∧
    (∀ stagerFirst, ((s.takeReport stagerFirst 5 f).ticket 0).map (·.target) = some 650) ∧
    ((s.takeReport true 5 f).record 5).active.map (·.ceiling) = some 350 ∧
    ((s.takeReport false 5 f).record 5).active.map (·.ceiling) = some 650 := by decide +kernel
/-- A REPORT of a converter that lowers its discharge limit below the share on its way (R142). -/
theorem test_report_clips_the_share :
    let s := pendingFor 62 (store 600 500) { SlotTx.empty with cover := some { share := 300, entry := 7 } }
    ∀ f ∈ parseReport (List.replicate 10 0 ++ [0x02, 0x58, 0, 100, 0, 100]), ∀ stagerFirst,
      let t := s.takeReport stagerFirst 62 f
      f.long.isSome = true ∧ (t.record 62).usable = true ∧ (t.tx 62).cover = some { share := 100, entry := 7 } := by
  decide +kernel
theorem test_hyp_ReportAcknowledgesTheEnvelope :
    let s := replied (.poll 5) report.length (withUnit 5 (lit 1600 (some lowered)))
    s.BegunInWindow ⟨.poll 5, 0, 0, []⟩ (report.length + 5) ∧ s.inReset = none ∧ s.link.txn = some ⟨.poll 5, 0, 0, []⟩ ∧ (6 : Byte).toNat = 5 + 1 ∧
    parseReport report = some reportFields ∧ (s.record 5).state = .bound ∧ (s.record 5).kind = .inverter ∧ s.QueueOk ∧
    (s.record 5).staged = some lowered := ⟨begun_replied .., by decide +kernel⟩

/-- A REPORT in little light, which meets the clamp test. -/
def darkFields : ReportFields := { reportFields with available := 100 }

/-- A mismatch that brings ACK MISMATCHES from below its threshold to it, and one below the threshold (R26). -/
theorem test_health_advisory_of_mismatches : ∀ stagerFirst,
    let f := { reportFields with ceiling := 1600 }
    let s := fun k => withUnit 5 { lit 1600 (some lowered) with ackMismatches := k }
    f.acknowledges lowered = false ∧ f.bank = some lowered.bank ∧ base.policy.ackThr = 16 ∧
    ((s 15).takeReport stagerFirst 5 f).port.causes = 0x020#12 ∧ ((s 15).takeReport stagerFirst 5 f).port.attn = true ∧
    ((s 14).takeReport stagerFirst 5 f).port.causes = 0 ∧ ((s 16).takeReport stagerFirst 5 f).port.causes = 0 := by
  decide +kernel
/-- A REPORT that ends the full cover of the array makes a zone in TIMING request (R123, R151). -/
theorem test_report_moves_the_cover_condition :
    let s := inTxn (.poll 62) busy
    ∀ f ∈ parseReport (List.replicate 10 0 ++ [0, 100, 0, 0, 0, 0]), ∀ stagerFirst,
      let t := s.takeReport stagerFirst 62 f
      f.long.isSome = true ∧ s.phase 3 = .timing 1000000 ∧ s.line.condition = .full ∧ t.line.condition = .caution ∧
      t.port.causes = 0x201#12 ∧ t.phase 3 = .empty := by decide +kernel

/-- The clamp test of a REPORT, without a ticket and with one above the clamp level. -/
theorem test_hyp_ReportAcknowledgesTheEnvelope_clamp :
    (((withUnit 5 (lit 1600 (some lowered))).record 5).afterAck darkFields).effCeiling = some 600 ∧
    min darkFields.available 2000 + 2000 * base.policy.clampGap / 1000 < 600 ∧
    (((busy.record 0).afterAck darkFields).effCeiling = some 1600 ∧ busy.QueueOk ∧
      100 + 2000 * busy.policy.clampMargin / 1000 < ticket.target) := by decide +kernel

/-- A climb from 1,000 kW to 1,500 kW whose light falls to 1,100 kW: the clamp-down cuts the ticket back to its start
ceiling, below the available power, and the REPORT makes no raise request in either order (R68, R70). -/
theorem test_clamp_cut_makes_no_request :
    let climb : Ticket := { ticket with start := 1000, target := 1500 }
    let r := lit 1000 (some { bank := true, ceiling := 1500, rate := 200 })
    let s := { (withUnit 0 r).setTicket 0 (some climb) with raise := { base.raise with
      tickets := place base.raise.tickets 0 (some climb), riseClaimed := 200, nextSeq := 1 } }
    let f := { reportFields with output := 900, available := 1100, ceiling := 1500 }
    let t := s.takeReport true 0 f
    s.QueueOk ∧ (r.afterAck f).effCeiling = some 1500 ∧ min 1100 2000 + 2000 * s.policy.clampGap / 1000 < 1500 ∧
    s.queued 0 = false ∧ ¬ climb.target ≤ f.output + 2000 * 10 / 1000 ∧
    t.raise.queue = [] ∧ t.ticketOf 0 = none ∧ t.raise.riseClaimed = 0 ∧
    ((t.record 0).staged.map (·.ceiling)) = some 1000 ∧ s.takeReport false 0 f = t := by decide +kernel

/-- The push of an acknowledged envelope has lapsed: the clamp-down of the same REPORT asks for its own (R50, R63). -/
theorem test_push_of_an_acknowledged_envelope_lapses : ∀ stagerFirst,
    let s := { ((withUnit 5 (lit 1600 (some lowered))).setTx 5 { SlotTx.empty with push := some 3 }) with now := 9 }
    let t := s.takeReport stagerFirst 5 darkFields
    (t.record 5).active = some lowered ∧ (t.record 5).staged = some { bank := false, ceiling := 200, rate := 400 } ∧
    (t.tx 5).push = some 9 := by decide +kernel

/-- A frame handed in behind one of its zone and moment whose earlier ones have been sent stands behind it (R52, R128). -/
theorem test_order_of_handing :
    let e : ZoneEnvTx := { zone := 9, slots := [1], entry := 0, order := 2 }
    let s := ({ base with link := { base.link with zoneEnvs := [e] } } : State).handZoneEnvs 9 [[5]]
    s.link.zoneEnvs.map (·.order) = [2, 3] ∧ s.arbiterChoice = some (.zoneEnv e) := by decide +kernel
/-- The frames of one claim have entry times of their own (R128): of the claims of zones 9 and 4 at one moment, the one
handed first goes first where claims have entry times of their own too, and where they share theirs a frame of the lower
zone goes before the frame of the other that has the same place (R52, log 13). -/
theorem test_claims_of_one_moment :
    let s := fun apart => (base.handFrames apart 9 [[1], [2]]).handFrames apart 4 [[5], [6]]
    (s true).arbiterChoice = some (.zoneEnv { zone := 9, slots := [1], entry := 0, order := 0 }) ∧
    (s false).arbiterChoice = some (.zoneEnv { zone := 4, slots := [5], entry := 0, order := 0 }) ∧
    (s true).link.zoneEnvs.map (·.order) = [0, 1, 2, 3] ∧ (s false).link.zoneEnvs.map (·.order) = [0, 1, 0, 1] ∧
    ((s false).link.zoneEnvs.filter fun e => e.zone = 9) ≠ [] := by decide +kernel
/-- An older frame goes before one of a lower zone (R52). -/
theorem test_older_zone_first : ∀ apart,
    (({ base.handFrames apart 9 [[1]] with now := 1 } : State).handFrames apart 4 [[5]]).arbiterChoice =
      some (.zoneEnv { zone := 9, slots := [1], entry := 0, order := 0 }) := by decide +kernel
/-- A claim may be handed at a moment at which frames of other zones alone are pending, or none. -/
theorem test_hyp_ArbiterTakesTheFirst_handing : ∀ d ∈ (base.handFrames false 9 [[1], [2]]).link.zoneEnvs, d.zone ≠ 4 := by
  decide +kernel

/-- Bits clocked in beyond the bytes of a failing frame: it is not that frame (R173, log 7). -/
theorem test_check_error_of_a_longer_frame :
    let s := receiving (bytesBits (requestBytes 0x01 []))
    after (.checkError [1]) s = s := by decide +kernel

/-- A JOIN of serial 7 as an inverter. -/
def joining : List Byte := [0, 0, 0, 0, 0, 7, 0, 0x0F, 0xA0]

/-- The part with every slot taken. -/
def fullTable : State :=
  { base with records := tabulate 64 fun n => { lit 10 none with serial := BitVec.ofNat 48 (100 + n) } }

theorem test_hyp_JoinOfANewUnit :
    let s := replied .joinWindow joining.length base
    s.BegunInWindow ⟨.joinWindow, 0, 0, []⟩ (joining.length + 5) ∧ (s.inReset = none ∧ s.link.txn = some ⟨.joinWindow, 0, 0, []⟩ ∧
      parseJoin joining = some { serial := 7, kind := .inverter, rating := 4000 } ∧
      (∀ n < 64, (s.record n).state ≠ .vacant → (s.record n).serial ≠ 7) ∧
      (s.record 0).state = .vacant ∧ slotKind s.policy.nr 0 = .inverter) ∧
    (∀ n < 64, (fullTable.record n).serial ≠ 7) ∧
    (∀ n < 64, ¬ ((fullTable.record n).state = .vacant ∧ slotKind fullTable.policy.nr n = .inverter)) :=
  ⟨begun_replied .., by decide +kernel⟩
theorem test_hyp_JoinOfAKnownUnit :
    ∀ st ∈ [RecState.recalled, .lapsed, .bound, .dormant, .addressed, .retiring],
      let s := replied .joinWindow joining.length (withUnit 63 { unit st .storage with serial := 7 })
      s.BegunInWindow ⟨.joinWindow, 0, 0, []⟩ (joining.length + 5) ∧ s.inReset = none ∧ s.link.txn = some ⟨.joinWindow, 0, 0, []⟩ ∧ (s.record 63).state = st ∧ (s.record 63).serial = 7 ∧
      s.SerialsOk := by
  have h : ∀ st ∈ [RecState.recalled, .lapsed, .bound, .dormant, .addressed, .retiring],
      let s := replied .joinWindow joining.length (withUnit 63 { unit st .storage with serial := 7 })
      s.inReset = none ∧ s.link.txn = some ⟨.joinWindow, 0, 0, []⟩ ∧ (s.record 63).state = st ∧ (s.record 63).serial = 7 ∧
      s.SerialsOk := by decide +kernel
  exact fun st hs => ⟨begun_replied .., h st hs⟩
theorem test_hyp_RetirementsRunTheirCourse :
    let s := replied (.release 63) 0 (withUnit 63 { unit .retiring .storage with releaseDeadline := some 60 })
    let u := withUnit 5 { unit .addressed .inverter with bindDeadline := some 60 }
    s.BegunInWindow ⟨.release 63, 0, 0, []⟩ 5 ∧ (s.inReset = none ∧ s.link.txn = some ⟨.release 63, 0, 0, []⟩ ∧ (64 : Byte).toNat = 63 + 1 ∧
      (s.record 63).state = .retiring ∧ (s.record 63).releaseDeadline = some 60) ∧
    ((u.record 5).state = .addressed ∧ (u.record 5).bindDeadline = some 60) := ⟨begun_replied .., by decide +kernel⟩
theorem test_hyp_FieldAndTimerRowsLeaveTheRest : fieldOrTimer (.arrivalExpiry 3) = true ∧
    (after (.arrivalExpiry 3) busy).now = 60000000 ∧ trackerTimer .lineStep = false ∧ arbiterRow .lineStep = false := by decide +kernel
theorem test_hyp_LeaseExpiryLapsesTheRecord :
    ((withUnit 63 (unit .addressed .storage)).record 63).lease = some 3000000 ∧
    ((withUnit 63 (unit .addressed .storage)).record 63).state = .addressed ∧
    ((withUnit 5 (lit 1600 none)).record 5).state = .bound ∧ ((withUnit 5 (lit 1600 none)).record 5).lease = some 3000000 ∧
    (withUnit 5 (lit 1600 none)).QueueOk := by decide +kernel
theorem test_hyp_AffirmPointsQueueTransmissions :
    let a : Affirm := { deadline := 100, due := some 75 }
    ((withUnit 5 { lit 1600 none with affirm := some a }).record 5).affirm = some a ∧
    ((withUnit 63 { store 0 0 with affirm := some a }).record 63).affirm = some a ∧
    ((withUnit 63 { store 0 0 with affirm := some a }).tx 63).cover = none ∧
    ((pendingFor 63 { store 0 0 with affirm := some a } { SlotTx.empty with cover := some { share := 1, entry := 0 } }).tx 63).cover
      ≠ none := by decide +kernel
theorem test_hyp_TicketExpiryEndsTheTicket : busy.ticket 0 = some ticket ∧ busy.inReset = none ∧ busy.RiseOk ∧ busy.QueueOk := by
  decide +kernel
theorem test_hyp_HoldLineIsFiltered : (base.inReset = none ∧ base.raise.holdLine ≠ true) ∧
    (after .powerOnReset base).inReset ≠ none ∧ (after (.holdInputChange true) base).raise.holdTimer = some 20000 := by decide +kernel
theorem test_hyp_SensorLinesAreDebounced : (base.inReset = none ∧ (base.sensor 15).line ≠ true) ∧
    ((after (.sensorLineChange 15 true) base).sensor 15).timer = some (true, 500000) := by decide +kernel

/-- The part with a sensor whose line has just changed. -/
def changing (level : Bool) : State := busy.setSensor 2 { line := level, filtered := !level, timer := some (level, 500000) }

theorem test_hyp_DebouncedChangesMoveTheZones : (changing true).inReset = none ∧ (changing true).MapOk ∧
    (changing true).mayPass 500000 ∧
    ((changing true).sensor 2).timer = some (true, 500000) ∧ { zone := 3, lead := 60 } ∈ look (changing true).shade.map 2 [] ∧
    (changing false).MapOk ∧ ((changing false).sensor 2).timer = some (false, 500000) ∧
    (∀ y ∈ ((changing false).zone 0).sources, y.sensor ≠ 2) ∧
    ((changing false).zone 3).state = .forecast ∧ (∃ y ∈ ((changing false).zone 3).sources, y.sensor = 2) ∧
    ((changing false).zone 4).state = .shaded ∧ (∃ y ∈ ((changing false).zone 4).sources, y.sensor = 2) := by decide +kernel
/-- A CLEAR zone on the list of a shading sensor, while RUNNING and while RECALLING. -/
theorem test_hyp_DebouncedChangesMoveTheZones_clear :
    (cloud.MapOk ∧ cloud.mayPass 500000 ∧ (cloud.sensor 2).timer = some (true, 500000) ∧ (cloud.zone 1).state = .clear ∧
      cloud.phase 1 = .idle ∧ cloud.governor = .running) ∧
    ({ cloud with governor := .recalling 5 } : State).governor ≠ .running := by decide +kernel

/-- A zone that enters TIMING leaves a waiting zone at the head of the wait list as it stands (R126). -/
theorem test_entering_timing_evaluates_nothing :
    let s := (((changing true).setZone 3 Zone.initial).setPhase 3 .idle).setPhase 4 .waiting
    let u := { s with lower := { s.lower with waitList := [4], fallClaimed := 0 } }
    (after (.debounceExpiry 2) u).takeNotices.phase 3 = .timing 55500000 ∧
    (after (.debounceExpiry 2) u).takeNotices.phase 4 = .waiting := by decide +kernel

/-! ### Notices as events of the allocators (R113, R114) -/

/-- A part in which these notices wait for an allocator. -/
def told (raise lower : List Notice) (s : State) : State := s.setNotices raise lower

/-- A zone leaves CLEAR and is released before either allocator has been told: two notices of it wait (R114). -/
theorem test_two_notices_of_a_zone_wait :
    (after (.setZone [1, 2]) (after (.debounceExpiry 2) cloud)).lower.notices =
      [.leftClear 1 60500000, .returnedClear 1 false] ∧
    (after (.setZone [1, 2]) (after (.debounceExpiry 2) cloud)).takeNotices.phase 1 = .idle := by decide +kernel
/-- A cancelled forecast is marked in the notice of it (R110); the SHADED zone of the same sensor gives none. -/
theorem test_cancelled_forecast : (after (.debounceExpiry 2) (changing false)).lower.notices = [.returnedClear 3 true] := by
  decide +kernel
/-- A REPORT between the change of a zone and its notice finds the zone out of CLEAR and makes no entry, while the
ticket that stands is cut only by the notice (R80, R88, R114). -/
theorem test_report_before_the_notice :
    let s := told [.leftClear 1 5] [] (busy.setZone 1 { Zone.initial with state := .shaded })
    let u := told [.leftClear 1 5] [] ((withUnit 2 (lit 350 none)).setZone 1 { Zone.initial with state := .shaded })
    (∀ f ∈ parseReport [0, 250, 0x07, 0x3A, 0, 0x01, 0x5E, 0], ∀ stagerFirst, (u.takeReport stagerFirst 2 f).queued 2 = false) ∧
    s.ticket 0 = some ticket ∧ s.takeRaiseNotice.ticket 0 = none := by decide +kernel
theorem test_hyp_notices_are_due : (told [.leftClear 1 5] [.leftClear 1 5] busy).inReset = none ∧
    (told [.leftClear 1 5] [.leftClear 1 5] busy).raise.notices ≠ [] ∧ (told [] [.leftClear 1 5] busy).raise.notices = [] ∧
    (told [] [.leftClear 1 5] busy).lower.notices ≠ [] := by decide +kernel
/-- A timer that runs on when the notices have been taken, and one that stops by them (log 36). -/
theorem test_hyp_timers_with_notices :
    let s := told [] [.returnedClear 3 true] busy
    (s.inReset = none ∧ s.deadlineOf .lineStep = some 200000 ∧ s.now < 200000 ∧
      (s.takeNotices.deadlineOf .lineStep).isSome = true) ∧
    (s.deadlineOf (.startTimerExpiry 3) = some 1000000 ∧ s.now < 1000000 ∧
      (s.takeNotices.deadlineOf (.startTimerExpiry 3)).isSome = false) ∧
    s.mayPass 0 ∧ ¬ s.mayPass 1 ∧ busy.mayPass 1 := by decide +kernel
theorem test_timer_takes_the_notices_first : (after .lineStep (told [] [.returnedClear 3 true] busy)).phase 3 = .idle ∧
    (after .lineStep (told [] [.returnedClear 3 true] busy)).now = 200000 ∧
    after (.startTimerExpiry 3) (told [] [.returnedClear 3 true] busy) = told [] [.returnedClear 3 true] busy := by
  decide +kernel
theorem test_hyp_notices_of_the_raise_allocator :
    ((told [.leftClear 1 5] [] busy).raise.notices = .leftClear 1 5 :: [] ∧ (told [.leftClear 1 5] [] busy).QueueOk ∧
      (busy.record 0).boundInverter = true ∧ (busy.record 0).inZone 1 = true ∧ busy.ticketOf 0 = some 0) ∧
    (told [.returnedClear 1 true] [] busy).raise.notices = .returnedClear 1 true :: [] := by decide +kernel
theorem test_hyp_notices_of_the_lowering_allocator :
    ((told [] [.leftClear 1 5] cloud).phase 1 = .idle ∧ cloud.governor = .running ∧
      (told [] [.leftClear 1 5] cloud).lower.notices = .leftClear 1 5 :: []) ∧
    (busy.WaitOk ∧ (busy.phase 3).code = 1 ∧ (told [] [.arrivalChanged 3 5] busy).lower.notices = .arrivalChanged 3 5 :: []) ∧
    (let s := told [] [.arrivalChanged 3 5, .returnedClear 4 true] ((busy.setPhase 3 .waiting).setPhase 4 .waiting)
     let u := { s with lower := { s.lower with waitList := [3, 4], fallClaimed := 0 } }
     u.WaitOk ∧ u.phase 3 = .waiting ∧ u.takeLowerNotice.lower.notices = [.returnedClear 4 true] ∧
     u.takeLowerNotice.WaitOk ∧ u.takeLowerNotice.phase 4 = .waiting ∧
     u.takeLowerNotice.lower.waitList.head? ≠ some 4) ∧
    ((told [] [.enteredShaded 3] busy).lower.notices = .enteredShaded 3 :: [] ∧
      (busy.setPhase 3 .empty).phase 3 = .empty) ∧
    ((told [] [.returnedClear 4 false] busy).lower.notices = .returnedClear 4 false :: [] ∧
      busy.phase 4 = .lowering { rate := 800, granted := 0, units := [], plannedEnd := 180000000, seq := 0 } ∧
      busy.lower.waitList = []) := by decide +kernel
/-- The rate of a ticket that the notice cuts goes to the entry of another zone, by the evaluation at its end (R88). -/
theorem test_left_zone_evaluates :
    let s := busy.setRecord 6 { lit 1600 none with binding := some { zone := 2, profile := 2, exempt := false } }
    let q : QueueEntry := { slot := 6, wanted := 100, time := 0 }
    let u := told [.leftClear 1 5] [] { s with raise := { s.raise with queue := [q] }, line := { s.line with lup := 200 } }
    u.QueueOk ∧ u.takeRaiseNotice.ticketOf 0 = none ∧ (u.takeRaiseNotice.ticket 0).map (·.slot) = some 6 ∧
    u.takeRaiseNotice.raise.riseClaimed = 200 := by decide +kernel
/-- A changed arrival brings a waiting zone to the head: it has no member and is EMPTY, and the zone it has passed keeps its
place, since nothing of Ldown is free (R122, R125, R126). -/
theorem test_changed_arrival_moves_the_place :
    let x := fun a => { Zone.initial with state := .forecast, arrival := some a }
    let s := (((cloud.setZone 1 (x 7)).setZone 9 (x 5)).setPhase 1 .waiting).setPhase 9 .waiting
    let u := told [] [.arrivalChanged 9 5]
      { s with lower := { s.lower with waitList := [1, 9], fallClaimed := s.line.ldown } }
    u.WaitOk ∧ u.takeLowerNotice.phase 9 = .empty ∧ u.takeLowerNotice.phase 1 = .waiting ∧
    u.takeLowerNotice.lower.waitList = [1] := by decide +kernel
theorem test_hyp_GrantsAndClaimsHaveTheirValues_report :
    let s := replied (.poll 0) 8 busy
    s.BegunInWindow ⟨.poll 0, 0, 0, []⟩ 13 ∧ s.inReset = none ∧ s.link.txn = some ⟨.poll 0, 0, 0, []⟩ ∧ (1 : Byte).toNat = 0 + 1 ∧ s.QueueOk ∧
    (s.record 0).state = .bound ∧ (s.record 0).kind = .inverter ∧
    parseReport [0x06, 0xE0, 0x07, 0xD0, 0xFF, 0, 0, 0] = some ⟨1760, 2000, none, 0, false, false, none⟩ ∧
    (∀ c ∈ (s.record 0).effCeiling, c ≤ min 2000 (s.record 0).rating + (s.record 0).rating * s.policy.clampGap / 1000) :=
  ⟨begun_replied .., by decide +kernel⟩
theorem test_hyp_GrantsAndClaimsHaveTheirValues : (busy.record 0).boundInverter = true ∧
    min ((busy.record 0).effCeiling.getD 0 + max 1 (min 300 (200 * busy.policy.ticketSpan / 60))) (busy.record 0).rating
      ≤ (busy.record 0).rating := by decide +kernel
/-- Grant evaluation passes a held entry and grants the exempt one behind it, whose zone is CLEAR (R78, R80). -/
theorem test_grant_evaluation_passes_a_held_entry :
    let s := withUnit 5 (lit 1600 none)
    let u := s.setRecord 6 { lit 1600 none with binding := some { zone := 1, profile := 2, exempt := true } }
    let q := fun n => ({ slot := n, wanted := 100, time := 0 } : QueueEntry)
    let v := { u with raise := { u.raise with holdFlag := true, effHold := true, queue := [q 5, q 6] } }
    v.grantEvaluation.raise.queue = [q 5] ∧ (v.grantEvaluation.ticket 0).map (·.slot) = some 6 ∧
    v.grantEvaluation.ticket 1 = none := by decide +kernel
/-- Claim evaluation takes a head without a member to EMPTY and grants the next (R126). -/
theorem test_claim_evaluation_walks_the_list :
    let s := (cloud.setPhase 9 .waiting).setPhase 1 .waiting
    let u := { s with lower := { s.lower with waitList := [9, 1] } }
    u.claimEvaluation.phase 9 = .empty ∧ (u.claimEvaluation.phase 1).code = 3 ∧ u.claimEvaluation.lower.waitList = [] := by
  decide +kernel
theorem test_hyp_ZoneTimersMoveTheZone :
    (busy.inReset = none ∧ (busy.zone 3).state = .forecast ∧ (busy.zone 3).arrival = some 60000000) ∧
    (let s := busy.setZone 4 { busy.zone 4 with clearTime := some 90000000 }
     s.inReset = none ∧ (s.zone 4).state = .shaded ∧ (s.zone 4).clearTime = some 90000000 ∧ s.WaitOk) ∧
    (busy.setPhase 3 .deferred).phase 3 = .deferred ∧ (busy.phase 3).code = 1 ∧ busy.governor = .running := by decide +kernel
theorem test_hyp_LoweringTimersMoveTheZone : (busy.inReset = none ∧ busy.phase 3 = .timing 1000000 ∧ busy.governor = .running) ∧
    (State.reset.setPhase 3 (.timing 5)).phase 3 = .timing 5 ∧ State.reset.governor ≠ .running ∧
    (busy.phase 4 = .lowering { rate := 800, granted := 0, units := [], plannedEnd := 180000000, seq := 0 } ∧ busy.WaitOk ∧
      busy.lower.waitList = []) ∧
    (cloud.planMembers 1 ≠ [] ∧ (cloud.newClaim (cloud.planMembers 1) 800).units.map (·.slot) = [2, 3]) := by decide +kernel
theorem test_hyp_LineStepFollowsTheArray : busy.inReset = none ∧ busy.line.timer = some 200000 := by decide +kernel
theorem test_hyp_CoverSplitAddsUp : (1000 : Int) ≠ 0 ∧
    (pair.usableSlots.map fun n => (pair.record n).countedDischarge pair.policy.reserve).sum ≠ 0 ∧ base.usableSlots = [] := by decide +kernel
theorem test_hyp_RecallWindowEnds : State.reset.inReset = none ∧ State.reset.governor = .recalling 30000000 ∧
    State.reset.raise.queue = [] := by decide +kernel
/-- DEFERRED zones while RECALLING, one SHADED and one FORECAST. -/
theorem test_hyp_RecallWindowEnds_deferred :
    let s := { ((busy.setPhase 3 .deferred).setPhase 4 .deferred) with governor := .recalling 5 }
    s.WaitOk ∧ s.raise.queue = [] ∧ s.phase 3 = .deferred ∧ (s.zone 3).state = .forecast ∧
    (s.zone 3).arrival = some 60000000 ∧ s.phase 4 = .deferred ∧ (s.zone 4).state = .shaded := by decide +kernel

theorem test_hyp_RiseClaimedStaysWithinLup : steady.RiseOk := by decide +kernel
theorem test_hyp_FallClaimedStaysWithinLdown : steady.MapOk ∧ steady.WaitOk ∧ steady.FallOk ∧ steady.IdleOk ∧
    steady.NoticesOk ∧ (told [] [.arrivalChanged 3 5] steady).NoticesOk := by decide +kernel
theorem test_hyp_TicketsAndEntriesStayWithBoundInverters : steady.QueueOk := by decide +kernel
theorem test_hyp_SerialsAndKindsStay : steady.SerialsOk ∧ steady.KindsOk := by decide +kernel
theorem test_hyp_EnvelopesStay : steady.EnvelopesOk := by decide +kernel
theorem test_hyp_ShadeTrackerStays_zones : steady.ZonesOk := by decide +kernel
theorem test_hyp_ShadeTrackerStays_map : steady.MapOk := by decide +kernel
theorem test_hyp_ShadeTrackerStays_sensors : steady.SensorsOk := by decide +kernel
theorem test_hyp_DerivedLevelsStay : steady.CoverOk ∧ steady.AttnOk ∧ steady.HoldOk := by decide +kernel
theorem test_hyp_SettingsStayInRange : steady.SettingsOk := by decide +kernel
theorem test_hyp_SweepKeepsItsPoll : steady.SweepOk := by decide +kernel
/-- A step from that state answers a next state. -/
theorem test_hyp_invariants_step : ∃ t, step { steady with pending := [.ticketExpiry 0] } = .next t := ⟨_, rfl⟩
theorem test_hyp_LockTimeAndTransactionsStand : locked.port.lock = true ∧ locked.inReset ≠ some .powerOn ∧
    (inTxn (.poll 0) base).link.txn = some ⟨.poll 0, 0, 0, []⟩ ∧ (after (.peek []) locked).port.lock = true := by decide +kernel

end Sys2Proof.Tests
end

