-- ==== Sys2Proof/Proofs/CoverSplit.lean ====
section

/-! The cover split of a line step (R143): what the remainder does to a list of shares, what one share is, and the two
forms of the split. -/
namespace Sys2Proof.Machine

/-! ### The remainder -/

/-- The remainder moves no share to another slot. -/
@[simp] theorem addRemainder_slots (c : Int) (shares : List (Nat × Int)) :
    (addRemainder c shares).map (·.1) = shares.map (·.1) := by
  cases shares with
  | nil => rfl
  | cons x rest => rfl

/-- Only the first share takes the remainder. -/
@[simp] theorem addRemainder_tail (c : Int) (shares : List (Nat × Int)) :
    (addRemainder c shares).tail = shares.tail := by
  cases shares with
  | nil => rfl
  | cons x rest => rfl

/-- With the remainder the shares add up to c, where there is a share to take it. -/
theorem addRemainder_sum (c : Int) {shares : List (Nat × Int)} (h : shares ≠ []) :
    ((addRemainder c shares).map (·.2)).sum = c := by
  cases shares with
  | nil => exact absurd rfl h
  | cons x rest =>
    simp only [addRemainder, List.map_cons, List.sum_cons]
    omega

/-! ### One share -/

/-- A share takes the sign of c, and its magnitude is rounded down. -/
theorem proportion_of_ne_zero {c : Int} (hc : c ≠ 0) (weight sum : Nat) :
    proportion c weight sum =
      if 0 < c then ((c.toNat * weight / sum : Nat) : Int) else -(((-c).toNat * weight / sum : Nat) : Int) := by
  obtain hneg | hpos := Int.lt_or_gt_of_ne hc
  · have hmag : c.natAbs = (-c).toNat := by omega
    rw [proportion, if_neg (by omega), if_neg (by omega), hmag]
  · have hmag : c.natAbs = c.toNat := by omega
    rw [proportion, if_pos (by omega), if_pos hpos, hmag]

/-! ### The split -/

/-- The weight of the converter of a slot in the direction of c. -/
def State.slotWeight (s : State) (c : Int) (n : Nat) : Nat := coverWeight s.policy.reserve (s.record n) c

/-- The sum of the weights over the usable converters. -/
def State.weightSum (s : State) (c : Int) : Nat := (s.usableSlots.map fun n => s.slotWeight c n).sum

/-- The shares of the usable converters before the remainder is given out. -/
def State.rawShares (s : State) (c : Int) : List (Nat × Int) :=
  s.usableSlots.map fun n => (n, proportion c (s.slotWeight c n) (s.weightSum c))

theorem State.splitCover_eq (s : State) (c : Int) :
    s.splitCover c = if c = 0 ∨ s.weightSum c = 0 then s.usableSlots.map fun n => (n, 0)
      else addRemainder c (s.rawShares c) := by
  simp only [State.splitCover, List.map_map]
  rfl

/-- With nothing to split or no weight to split it by, every share is 0 kW. -/
theorem State.splitCover_of_zero {s : State} {c : Int} (h : c = 0 ∨ s.weightSum c = 0) :
    s.splitCover c = s.usableSlots.map fun n => (n, 0) := by
  rw [State.splitCover_eq, if_pos h]

/-- Otherwise the shares are the proportional ones with the remainder given out. -/
theorem State.splitCover_of_ne_zero {s : State} {c : Int} (hc : c ≠ 0) (hsum : s.weightSum c ≠ 0) :
    s.splitCover c = addRemainder c (s.rawShares c) := by
  rw [State.splitCover_eq, if_neg (not_or.mpr ⟨hc, hsum⟩)]

@[simp] theorem State.rawShares_slots (s : State) (c : Int) : (s.rawShares c).map (·.1) = s.usableSlots := by
  simp [State.rawShares, Function.comp_def]

/-- A positive sum of weights has a usable converter behind it. -/
theorem State.rawShares_ne_nil {s : State} {c : Int} (hsum : s.weightSum c ≠ 0) : s.rawShares c ≠ [] := by
  intro hnil
  have hslots : s.usableSlots = [] := by rw [← s.rawShares_slots c, hnil, List.map_nil]
  exact hsum (by rw [State.weightSum, hslots, List.map_nil, List.sum_nil])

/-- There is one share for each usable converter, in slot order. -/
theorem State.splitCover_slots (s : State) (c : Int) : (s.splitCover c).map (·.1) = s.usableSlots := by
  by_cases h : c = 0 ∨ s.weightSum c = 0
  · simp [State.splitCover_of_zero h, Function.comp_def]
  · obtain ⟨hc, hsum⟩ := not_or.mp h
    rw [State.splitCover_of_ne_zero hc hsum, addRemainder_slots, State.rawShares_slots]

theorem State.splitCover_sum {s : State} {c : Int} (hc : c ≠ 0) (hsum : s.weightSum c ≠ 0) :
    ((s.splitCover c).map (·.2)).sum = c := by
  rw [State.splitCover_of_ne_zero hc hsum]
  exact addRemainder_sum c (State.rawShares_ne_nil hsum)

/-- Behind the lowest-numbered converter each share is the proportional one. -/
theorem State.splitCover_tail_share {s : State} {c : Int} (hc : c ≠ 0) (hsum : s.weightSum c ≠ 0) {x : Nat × Int}
    (hx : x ∈ (s.splitCover c).tail) : x.2 = proportion c (s.slotWeight c x.1) (s.weightSum c) := by
  rw [State.splitCover_of_ne_zero hc hsum, addRemainder_tail] at hx
  obtain ⟨n, -, rfl⟩ := List.mem_map.mp (List.mem_of_mem_tail hx)
  rfl

theorem State.splitCover_share_of_zero {s : State} {c : Int} (h : c = 0 ∨ s.weightSum c = 0) {x : Nat × Int}
    (hx : x ∈ s.splitCover c) : x.2 = 0 := by
  rw [State.splitCover_of_zero h] at hx
  obtain ⟨n, -, rfl⟩ := List.mem_map.mp hx
  rfl

/-- Settles O48: the clauses are the lemmas above about the split; the clipping of R144 is the model's own map. -/
theorem coverSplitAddsUp : Obligations.CoverSplitAddsUp := by
  intro s c weight sum
  refine ⟨s.splitCover_slots c, fun hc hsum => ⟨State.splitCover_sum hc hsum, fun x hx => ?_⟩,
    fun h x hx => State.splitCover_share_of_zero h hx, rfl⟩
  have hshare : x.2 = proportion c (weight x.1) sum := State.splitCover_tail_share hc hsum hx
  rw [hshare, proportion_of_ne_zero hc]

end Sys2Proof.Machine
end

