-- ==== Sys2Proof/Proofs/RecallRequest.lean ====
section

/-! The request RECALL and the start of a recall (R160 to R162): the allocators come to rest first, so that the change of
each record that follows touches nothing of theirs and none of the other records. -/
namespace Sys2Proof.Machine

/-- The table of the contents of a table is the table. -/
theorem tabulate_look {α : Type} {n : Nat} (v : Vector α n) (d : α) : tabulate n (fun i => look v i d) = v := by
  refine Vector.ext fun i hi => Option.some.inj ?_
  rw [← Vector.getElem?_eq_getElem hi, getElem?_tabulate, if_pos hi, look, Vector.getElem?_eq_getElem hi, Option.getD_some]

/-! ### The allocators at rest -/

/-- The allocators as a recall leaves them (R91, R133): nothing is granted, no ticket is live, no entry is queued and no
zone has a start timer or a claim. -/
structure State.AtRest (s : State) : Prop where
  notRunning : s.isRunning = false
  tickets : ∀ k, s.ticket k = none
  queue : s.raise.queue = []
  phases : ∀ z, s.phase z = .idle ∨ s.phase z = .deferred

/-- Beside what every block keeps, the two allocators are left whole. -/
structure RestKept (s t : State) : Prop extends Kept s t where
  raise : t.raise = s.raise
  lower : t.lower = s.lower

namespace RestKept

theorem refl (s : State) : RestKept s s := ⟨Kept.refl s, rfl, rfl⟩

theorem trans {s t u : State} (h : RestKept s t) (g : RestKept t u) : RestKept s u :=
  ⟨h.toKept.trans g.toKept, g.raise.trans h.raise, g.lower.trans h.lower⟩

theorem ticket {s t : State} (h : RestKept s t) (k : Nat) : t.ticket k = s.ticket k := by
  rw [State.ticket, h.raise, ← State.ticket]

theorem phase {s t : State} (h : RestKept s t) (z : Nat) : t.phase z = s.phase z := by
  rw [State.phase, h.lower, ← State.phase]

theorem atRest {s t : State} (h : RestKept s t) (hs : s.AtRest) : t.AtRest where
  notRunning := by rw [State.isRunning, h.governor, ← State.isRunning, hs.notRunning]
  tickets k := (h.ticket k).trans (hs.tickets k)
  queue := by rw [h.raise, hs.queue]
  phases z := by rw [h.phase z]; exact hs.phases z

end RestKept

/-- The records are left whole as well. -/
structure RecordsKept (s t : State) : Prop extends RestKept s t where
  records : t.records = s.records

namespace RecordsKept

theorem refl (s : State) : RecordsKept s s := ⟨RestKept.refl s, rfl⟩

theorem trans {s t u : State} (h : RecordsKept s t) (g : RecordsKept t u) : RecordsKept s u :=
  ⟨h.toRestKept.trans g.toRestKept, g.records.trans h.records⟩

theorem record {s t : State} (h : RecordsKept s t) (m : Nat) : t.record m = s.record m := by
  rw [State.record, h.records, ← State.record]

end RecordsKept

/-- One record is replaced, and the others are left whole. -/
structure RecordSet (n : Nat) (r : UnitRecord) (s t : State) : Prop extends RestKept s t where
  record : ∀ m, t.record m = if n = m ∧ n < 64 then r else s.record m

theorem recordSet_setRecord (s : State) (n : Nat) (r : UnitRecord) : RecordSet n r s (s.setRecord n r) :=
  ⟨⟨kept_setRecord s n r, rfl, rfl⟩, fun m => State.record_setRecord s n m r⟩

/-- Work that leaves the records whole may come before and after. -/
theorem RecordsKept.recordSet {s t u v : State} {n : Nat} {r : UnitRecord} (h : RecordsKept s t) (g : RecordSet n r t u)
    (k : RecordsKept u v) : RecordSet n r s v where
  toRestKept := (h.toRestKept.trans g.toRestKept).trans k.toRestKept
  record m := by rw [k.record, g.record, h.record]

/-! ### What the blocks do with the allocators at rest -/

theorem recordsKept_setTx (s : State) (n : Nat) (t : SlotTx) : RecordsKept s (s.setTx n t) :=
  ⟨⟨kept_setTx s n t, rfl, rfl⟩, rfl⟩

theorem recordsKept_dropTx (n : Nat) (s : State) : RecordsKept s (s.dropTx n) := recordsKept_setTx ..

theorem recordsKept_dropCover (n : Nat) (s : State) : RecordsKept s (s.dropCover n) := recordsKept_setTx ..

theorem recordsKept_lapseReasons (n : Nat) (s : State) : RecordsKept s (s.lapseReasons n) := recordsKept_setTx ..

theorem recordsKept_setPart (s : State) (n : Nat) (p : Option Nat) : RecordsKept s (s.setPart n p) :=
  ⟨⟨kept_setPart s n p, rfl, rfl⟩, rfl⟩

theorem recordsKept_setLastShare (s : State) (n : Nat) (x : Option Int) : RecordsKept s (s.setLastShare n x) :=
  ⟨⟨kept_setLastShare s n x, rfl, rfl⟩, rfl⟩

/-- What every record that stops being governed loses (R6). -/
def UnitRecord.ungoverned (r : UnitRecord) : UnitRecord :=
  { r with staged := none, affirm := none, lease := none, bindDeadline := none }

namespace State.AtRest

variable {s : State}

theorem grantEvaluation_eq (h : s.AtRest) : s.grantEvaluation = s := by
  rw [State.grantEvaluation, h.notRunning, if_neg Bool.false_ne_true]

theorem evaluateIf_eq (h : s.AtRest) (b : Bool) : s.evaluateIf b = s := by
  cases b with
  | false => rfl
  | true => exact h.grantEvaluation_eq

theorem ticketOf_eq (h : s.AtRest) (n : Nat) : s.ticketOf n = none := by
  simp [State.ticketOf, h.tickets]

theorem endSlotTicket_eq (h : s.AtRest) (n : Nat) : s.endSlotTicket n = s := by
  simp only [State.endSlotTicket, h.ticketOf_eq]

theorem recordsKept_removeEntry (h : s.AtRest) (n : Nat) : RecordsKept s (s.removeEntry n) where
  toKept := (stageKept_removeEntry s n).toKept
  raise := by simp only [State.removeEntry, h.queue, List.filter_nil]; rw [← h.queue]
  lower := rfl
  records := rfl

/-- No claim is live, so that there is no entry to mark freed (R132). -/
theorem recordsKept_freeClaimUnits (h : s.AtRest) (n : Nat) : RecordsKept s (s.freeClaimUnits n) where
  toKept := (stageKept_freeClaimUnits n s).toKept
  raise := rfl
  lower := by
    have hphases : (s.freeClaimUnits n).lower.phases = tabulate 16 s.phase := by
      refine congrArg (tabulate 16) (funext fun z => ?_)
      obtain hz | hz := h.phases z <;> rw [hz]
    have hsame : (s.freeClaimUnits n).lower.phases = s.lower.phases := hphases.trans (tabulate_look s.lower.phases .idle)
    exact congrArg (fun v => { s.lower with phases := v }) hsame
  records := rfl

theorem timingZones_eq (h : s.AtRest) : s.timingZones = [] := by
  refine List.filter_eq_nil_iff.mpr fun z _ => ?_
  obtain hz | hz := h.phases z <;> simp [hz]

theorem loweringCoverChanged_eq (h : s.AtRest) (c : CoverCond) : s.loweringCoverChanged c = s := by
  simp [State.loweringCoverChanged, State.timingZonesRequest, h.timingZones_eq]

/-- No zone is in TIMING, so that a new cover condition makes none request (R123). -/
theorem recordsKept_workCondition (h : s.AtRest) : RecordsKept s s.workCondition := by
  have hkept := kept_workCondition s
  simp only [State.workCondition] at hkept ⊢
  split at hkept
  · next hc => rw [if_pos hc]; exact .refl s
  · next hc =>
    have hrest : State.AtRest (State.raiseCause .coverCondition
        { s with line := { s.line with condition := s.conditionNow } }) := ⟨h.notRunning, h.tickets, h.queue, h.phases⟩
    rw [hrest.loweringCoverChanged_eq] at hkept
    rw [if_neg hc, hrest.loweringCoverChanged_eq]
    exact ⟨⟨hkept, rfl, rfl⟩, rfl⟩

theorem recordsKept_workConditionIf (h : s.AtRest) (b : Bool) : RecordsKept s (s.workConditionIf b) := by
  cases b with
  | false => exact .refl s
  | true => exact h.recordsKept_workCondition

/-! ### The records -/

/-- A record is replaced where its slot has no ticket to end and no entry to remove. -/
theorem recordSet_replaceRecord (h : s.AtRest) (n : Nat) (r : UnitRecord) :
    RecordSet n r s (((s.endSlotTicket n).removeEntry n).setRecord n r) := by
  rw [h.endSlotTicket_eq]
  exact (h.recordsKept_removeEntry n).recordSet (recordSet_setRecord ..) (.refl _)

/-- A change of a slot is that of its record: what is dropped for the slot, the cover condition worked afresh and the
grant evaluation leave the allocators and the other records whole. -/
theorem recordSet_changeSlot (h : s.AtRest) {n : Nat} {r : UnitRecord} {t : State}
    (ht : RecordsKept (((s.endSlotTicket n).removeEntry n).setRecord n r) t) (b calls : Bool) :
    RecordSet n r s ((t.workConditionIf b).evaluateIf calls) := by
  have hset := h.recordSet_replaceRecord n r
  have hrest := ht.atRest (hset.atRest h)
  have hcond := hrest.recordsKept_workConditionIf b
  rw [(hcond.atRest hrest).evaluateIf_eq]
  exact RecordsKept.recordSet (.refl s) hset (ht.trans hcond)

theorem recordSet_becomeVacant (h : s.AtRest) (n : Nat) : RecordSet n .vacant s (s.becomeVacant n) := by
  have hslot := ((recordsKept_dropTx n (((s.endSlotTicket n).removeEntry n).setRecord n .vacant)).trans
    (recordsKept_setPart _ n none)).trans (recordsKept_setLastShare _ n none)
  have hrest := hslot.atRest ((h.recordSet_replaceRecord n .vacant).atRest h)
  exact h.recordSet_changeSlot (hslot.trans (hrest.recordsKept_freeClaimUnits n)) ..

/-- A record that stops being governed changes by itself, where `after` leaves the records and the allocators whole (R6). -/
theorem recordSet_leaveGoverned (h : s.AtRest) (n : Nat) (change : UnitRecord → UnitRecord) {after : State → State}
    (ha : ∀ t, RecordsKept t (after t)) :
    RecordSet n (change (s.record n).ungoverned) s (s.leaveGoverned n change after) := by
  refine h.recordSet_changeSlot (r := change (s.record n).ungoverned) (RecordsKept.trans ?_ (ha _)) ..
  have hreasons := recordsKept_lapseReasons n (((s.endSlotTicket n).removeEntry n).setRecord n
    (change (s.record n).ungoverned))
  split
  · exact (hreasons.trans (recordsKept_dropCover n _)).trans (recordsKept_setLastShare ..)
  · exact hreasons

end State.AtRest

/-! ### The change of each record (R160) -/

/-- A record as the start of a recall leaves it (R160). -/
def UnitRecord.atRecall (r : UnitRecord) : UnitRecord :=
  match r.state with
  | .vacant | .recalled => r
  | .addressed | .retiring => .vacant
  | .bound | .dormant | .lapsed => { r.ungoverned with state := .recalled, active := none }

/-- A record that a recall has changed stands. -/
@[simp] theorem UnitRecord.atRecall_atRecall (r : UnitRecord) : r.atRecall.atRecall = r.atRecall := by
  cases h : r.state <;> simp [UnitRecord.atRecall, h, UnitRecord.vacant, UnitRecord.ungoverned]

theorem State.AtRest.recordSet_recallRecord {s : State} (h : s.AtRest) (n : Nat) :
    RecordSet n (s.record n).atRecall s (s.recallRecord n) := by
  have hsame : RecordSet n (s.record n) s s := by
    refine ⟨.refl s, fun m => ?_⟩
    split
    · next hm => rw [hm.1]
    · rfl
  cases hst : (s.record n).state <;> simp only [State.recallRecord, UnitRecord.atRecall, hst]
  case vacant | recalled => exact hsame
  case addressed | retiring => exact h.recordSet_becomeVacant n
  case bound | dormant | lapsed =>
    exact h.recordSet_leaveGoverned n (fun r => { r with state := .recalled, active := none }) (recordsKept_dropTx n)

/-- The records of a list of slots change one after another, each by itself. -/
theorem State.AtRest.foldl_recallRecord {s : State} (h : s.AtRest) (l : List Nat) (hl : ∀ n ∈ l, n < 64) :
    RestKept s (l.foldl (fun t n => t.recallRecord n) s) ∧
      ∀ m, (l.foldl (fun t n => t.recallRecord n) s).record m =
        if m ∈ l then (s.record m).atRecall else s.record m := by
  induction l generalizing s with
  | nil => exact ⟨.refl s, fun m => by simp⟩
  | cons n l ih =>
    have hset := h.recordSet_recallRecord n
    obtain ⟨hkept, hrecord⟩ := ih (hset.atRest h) fun k hk => hl k (List.mem_cons_of_mem n hk)
    refine ⟨hset.toRestKept.trans hkept, fun m => ?_⟩
    have hn : n < 64 := hl n List.mem_cons_self
    rw [List.foldl_cons, hrecord, hset.record]
    by_cases hm : n = m
    · subst hm
      simp [hn]
    · simp [hm, Ne.symm hm]

/-! ### The start of a recall (R160, R161) -/

/-- The state in which the window is set and the allocators have been told, before the records change (R91, R133). -/
def State.recallStarted (s : State) : State :=
  ({ s with governor := .recalling (s.now + sec s.policy.recallWindow) } : State).raiseRecallBegins.loweringRecallBegins

theorem State.recallStarted_ticket (s : State) (k : Nat) : s.recallStarted.ticket k = none := by
  have hticket : s.recallStarted.ticket k = look (Vector.replicate 16 none) k none := rfl
  rw [hticket, look_replicate, ite_self]

theorem State.recallStarted_phase (s : State) (z : Nat) :
    s.recallStarted.phase z = if z < 16 then if (s.zone z).state = .clear then .idle else .deferred else .idle :=
  look_tabulate ..

theorem State.recallStarted_atRest (s : State) : s.recallStarted.AtRest where
  notRunning := rfl
  tickets := s.recallStarted_ticket
  queue := rfl
  phases z := by
    rw [s.recallStarted_phase]
    split
    · split
      · exact .inl rfl
      · exact .inr rfl
    · exact .inl rfl

/-- The RECALL broadcast is queued unless one is pending, and every ZONE ENVELOPE is dropped (R43, R161). -/
def State.queueRecall (s : State) : State :=
  { s with link := { s.link with zoneEnvs := [], recallTx := s.link.recallTx <|> some s.now } }

theorem State.queueRecall_recallTx (s : State) : s.queueRecall.link.recallTx.isSome = true := by
  simp [State.queueRecall]

/-- A recall begins: between the notices to the allocators and the broadcast every record changes by its state. Beside
them that may touch only what is pending and counted for the slots and the cover condition with its cause. -/
theorem State.recallBegins_spec (s : State) : ∃ t, s.recallBegins = t.queueRecall ∧ RestKept s.recallStarted t ∧
    ∀ n < 64, t.record n = (s.record n).atRecall := by
  obtain ⟨hkept, hrecord⟩ := s.recallStarted_atRest.foldl_recallRecord allSlots fun n hn => List.mem_range.mp hn
  exact ⟨_, rfl, hkept, fun n hn => (hrecord n).trans (if_pos (List.mem_range.mpr hn))⟩

/-! ### The request RECALL (R162) -/

theorem exec_recall (payload : List Byte) (s : State) : exec (.recall payload) s = execRecall payload s := rfl

theorem emptyForm_nil : emptyForm [] = some () := rfl

theorem msLeft_add_sec (now n : Nat) : msLeft now (some (now + sec n)) = n * 1000 := by
  simp only [msLeft, sec]; omega

theorem bodyRecall_of_recalling {s : State} {w : Nat} (h : s.governor = .recalling w) :
    bodyRecall [] s = (s, .answer { status := .busy, payload := 0 :: beSat 4 ((w - s.now) / 1000) }) := by
  simp only [bodyRecall, emptyForm_nil, h, State.governorPayload, msLeft]
  rfl

/-- The answer gives the whole of the window that has just been set. -/
theorem governorPayload_recallBegins (s : State) :
    s.recallBegins.governorPayload = 0 :: beSat 4 (s.policy.recallWindow * 1000) := by
  obtain ⟨t, hbegins, hkept, -⟩ := s.recallBegins_spec
  have hgov : t.queueRecall.governor = .recalling (s.now + sec s.policy.recallWindow) := hkept.governor
  have hnow : t.queueRecall.now = s.now := hkept.now
  simp only [hbegins, State.governorPayload, hgov, hnow, msLeft_add_sec]
  rfl

theorem bodyRecall_of_running {s : State} (h : s.governor = .running) : bodyRecall [] s =
    (s.recallBegins, .answer { status := .accepted, payload := 0 :: beSat 4 (s.policy.recallWindow * 1000) }) := by
  simp only [bodyRecall, emptyForm_nil, h, governorPayload_recallBegins]

/-- While RECALLING the request is BUSY and changes nothing: the window stands. -/
theorem exec_recall_of_recalling {s : State} {w : Nat} (ht : s.takesRequest 0x70 [] = true)
    (h : s.governor = .recalling w) :
    exec (.recall []) s = .next (s.answered .busy (0 :: beSat 4 ((w - s.now) / 1000))) := by
  have hbody : bodyRecall [] s.portIdle = _ := bodyRecall_of_recalling (s := s.portIdle) h
  rw [exec_recall, execRecall, requestFrame_of_takes ht, execute_answered hbody, State.portIdle_now]

/-- While RUNNING the request begins a recall and its execution. -/
theorem exec_recall_of_running {s : State} (ht : s.takesRequest 0x70 [] = true) (h : s.governor = .running) :
    exec (.recall []) s = .next (s.portIdle.recallBegins.beginExecution
      (some { status := .accepted, payload := 0 :: beSat 4 (s.policy.recallWindow * 1000) })).settle := by
  have hbody : bodyRecall [] s.portIdle = _ := bodyRecall_of_running (s := s.portIdle) h
  rw [exec_recall, execRecall, requestFrame_of_takes ht, execute_answer hbody, State.portIdle_policy]

/-- Settles O20: RECALLING, by `exec_recall_of_recalling`; RUNNING, by what the start of a recall leaves. -/
theorem recallRequestBeginsARecall : Obligations.RecallRequestBeginsARecall := by
  intro s ht
  refine ⟨fun w hw => exec_recall_of_recalling ht hw, fun hrun => ?_⟩
  obtain ⟨t, hbegins, hkept, hrecord⟩ := s.portIdle.recallBegins_spec
  refine ⟨_, exec_recall_of_running ht hrun, ?_⟩
  rw [hbegins]
  refine ⟨⟨hkept.portCsLow, hkept.portReceiver, ?_, hkept.portPending, hkept.portSck⟩, hkept.governor, fun n hn => ?_,
    fun k _ => (hkept.ticket k).trans (State.recallStarted_ticket _ k), congrArg (·.queue) hkept.raise,
    congrArg (·.riseClaimed) hkept.raise, congrArg (·.waitList) hkept.lower, congrArg (·.fallClaimed) hkept.lower,
    fun z hz => ?_, rfl, t.queueRecall_recallTx, hkept.linkSweep, hkept.linkServed,
    hkept.linkTxn, hkept.shade, hkept.policy, hkept.profiles, hkept.now, hkept.raiseEffHold, hkept.raiseHoldFlag,
    hkept.linePl, hkept.lineEpisode, hkept.lineLup, hkept.lineLdown⟩
  · have hnow : t.queueRecall.now = s.now := hkept.now
    simp only [State.settle_port, State.beginExecution, State.setPort, hnow]
  · refine (hrecord n hn).trans ?_
    simp only [UnitRecord.atRecall, State.portIdle_record]
    cases (s.record n).state <;> rfl
  · exact (hkept.phase z).trans ((State.recallStarted_phase _ z).trans (if_pos hz))

end Sys2Proof.Machine
end

section

/-! The requests over the attention flags, STATUS, PEEK and SET MASK (R184 to R186): each answers DONE and writes at most
the causes and the mask, with ATTN worked afresh. -/
namespace Sys2Proof.Machine

/-! ### Flags -/

/-- With no cause set ATTN is low, whatever the mask. -/
@[simp] theorem attnLevel_zero (mask : BitVec 12) : attnLevel 0 mask = false := by
  simp [attnLevel]

/-- Flags written as they stand change nothing where ATTN already is what they give. -/
theorem Port.withFlags_self {p : Port} (h : p.attn = attnLevel p.causes p.mask) : p.withFlags p.causes p.mask = p := by
  rw [Port.withFlags, ← h]

/-! ### A request that writes the flags -/

/-- The state in which a request has been answered DONE and nothing else is changed but the flags, with ATTN worked
afresh (R183). -/
def State.answeredWithFlags (causes mask : BitVec 12) (payload : List Byte) (s : State) : State :=
  (s.answered .done payload).setPort ((s.answered .done payload).port.withFlags causes mask)

/-- With the flags as they stand, it is the state in which a request has been answered and nothing else is changed. -/
theorem State.answeredWithFlags_self {s : State} (h : s.AttnOk) (payload : List Byte) :
    s.answeredWithFlags s.port.causes s.port.mask payload = s.answered .done payload := by
  have hport : (s.answered .done payload).port.withFlags s.port.causes s.port.mask = (s.answered .done payload).port :=
    Port.withFlags_self (p := (s.answered .done payload).port) h
  rw [State.answeredWithFlags, hport, State.setPort]

/-- A request whose rule writes the flags and answers DONE leaves the state `answeredWithFlags`. -/
theorem execute_flags {s : State} {body : State → State × Reply} {causes mask : BitVec 12} {payload : List Byte}
    (h : body s.portIdle = (s.portIdle.setPort (s.portIdle.port.withFlags causes mask), .done payload)) :
    (s.execute body).settle = s.answeredWithFlags causes mask payload := by
  rw [execute_answer h]
  rfl

/-! ### STATUS and PEEK (R184, R185) -/

theorem exec_status (payload : List Byte) (s : State) : exec (.status payload) s = execStatus payload s := rfl

theorem exec_peek (payload : List Byte) (s : State) : exec (.peek payload) s = execPeek payload s := rfl

theorem bodyStatus_nil (s : State) :
    bodyStatus [] s = (s.setPort (s.port.withFlags 0 s.port.mask), .done s.causesPayload) := by
  simp only [bodyStatus, emptyForm_nil]

theorem bodyPeek_nil (s : State) : bodyPeek [] s = (s, .done s.causesPayload) := by
  simp only [bodyPeek, emptyForm_nil]

/-- STATUS clears every cause and keeps the mask. -/
theorem exec_status_of_takes {s : State} (ht : s.takesRequest 0x01 [] = true) :
    exec (.status []) s = .next (s.answeredWithFlags 0 s.port.mask s.causesPayload) := by
  rw [exec_status, execStatus, requestFrame_of_takes ht, execute_flags (bodyStatus_nil s.portIdle)]
  rfl

/-- PEEK changes nothing. -/
theorem exec_peek_of_takes {s : State} (ht : s.takesRequest 0x02 [] = true) :
    exec (.peek []) s = .next (s.answered .done s.causesPayload) := by
  rw [exec_peek, execPeek, requestFrame_of_takes ht, execute_answered (bodyPeek_nil s.portIdle)]
  rfl

/-- Settles O4: STATUS writes no cause beside the mask as it stands, so that ATTN is low; PEEK only answers. -/
theorem statusClearsAndPeekReads : Obligations.StatusClearsAndPeekReads := by
  intro s
  refine ⟨fun ht => ?_, exec_peek_of_takes⟩
  rw [exec_status_of_takes ht, State.answeredWithFlags, Port.withFlags, attnLevel_zero]
  rfl

/-! ### SET MASK (R186) -/

theorem exec_setMask (payload : List Byte) (s : State) : exec (.setMask payload) s = execSetMask payload s := rfl

theorem maskForm_nil : maskForm [] = some none := rfl

/-- The part of SET MASK gives the lowest twelve bits of its two bytes, the most significant byte first. -/
theorem maskForm_part (hi lo : Byte) :
    maskForm [0x01, hi, lo] = some (some (BitVec.ofNat 12 (hi.toNat * 256 + lo.toNat))) := by
  have hform : maskForm [0x01, hi, lo] = some (some (BitVec.ofNat 12 (beNat [hi, lo]))) := rfl
  have hnat : beNat [hi, lo] = hi.toNat * 256 + lo.toNat := by simp [beNat]
  rw [hform, hnat]

/-- SET MASK writes the mask it carries, or the mask as it stands, beside the causes as they stand, and answers both. -/
theorem exec_setMask_of_takes {s : State} {payload : List Byte} {m : Option (BitVec 12)}
    (ht : s.takesRequest 0x03 payload = true) (hm : maskForm payload = some m) :
    exec (.setMask payload) s = .next (s.answeredWithFlags s.port.causes (m.getD s.port.mask)
      (flagBytes (m.getD s.port.mask) ++ flagBytes s.port.causes)) := by
  have hbody : bodySetMask payload s.portIdle =
      (s.portIdle.setPort (s.portIdle.port.withFlags s.port.causes (m.getD s.port.mask)),
        .done (flagBytes (m.getD s.port.mask) ++ flagBytes s.port.causes)) := by
    simp only [bodySetMask, hm]
    rfl
  rw [exec_setMask, execSetMask, requestFrame_of_takes ht, execute_flags hbody]

/-- Settles O5: without the part the flags are written as they stand; with it the mask is that of `maskForm_part`. -/
theorem setMaskWritesTheMask : Obligations.SetMaskWritesTheMask := by
  intro s
  refine ⟨fun ht hattn => ?_, fun hi lo ht => ?_⟩
  · rw [exec_setMask_of_takes ht maskForm_nil, Option.getD_none, State.answeredWithFlags_self hattn]
  · rw [exec_setMask_of_takes ht (maskForm_part hi lo), Option.getD_some]
    rfl

end Sys2Proof.Machine
end
